-- ==== Sys2Proof/Word.lean ====
section
/-! DEFINITION. The words of the block (00_scope.md R11: unsigned integers of 8, 16 and 24 bits) and its
small value types: a pixel (R39), a line level (R43), an LED-line symbol (R47). -/

namespace Sys2Proof

/-- u8. -/
abbrev Byte := BitVec 8

/-- u16. -/
abbrev Half := BitVec 16

/-- u24, the wire word of a pixel (R212). -/
abbrev Wire24 := BitVec 24

/-- One entry of the pixel buffer, stored as `(r, g, b)` (R39, R65). -/
structure Pixel where
  r : Byte
  g : Byte
  b : Byte
deriving DecidableEq, Repr

/-- The pixel `(0, 0, 0)`. -/
def Pixel.black : Pixel := ⟨0, 0, 0⟩

/-- The level of the LED data line (R43). -/
inductive Level where
  | low
  | high
deriving DecidableEq, Repr

/-- A symbol of the LED output history (R47). -/
inductive LedSym where
  | bit (b : Bool)
  | latch
deriving DecidableEq, Repr

end Sys2Proof
end

