-- ==== Sys2Proof/Config.lean ====
section
/-! DEFINITION. What an implementation fixes: the parameters of 00_scope.md R9 with their constraints and the
spec's reference configuration; and the values the spec leaves free (constants without a body). -/

namespace Sys2Proof

/-- The parameters of R9. Durations are in nanoseconds. DESIGN CHOICE (log 1): the model takes them as data
held in `State.cfg`, which no step writes, so a claim about every state is a claim about every configuration. -/
structure Params where
  start : Byte
  typeEmpty : Byte
  typeTest : Byte
  typeLedCtrl : Byte
  typeLedData : Byte
  typeBusy : Byte
  typeReady : Byte
  subSelectBlock : Byte
  subCopy : Byte
  subClear : Byte
  subPush : Byte
  maxData : Nat
  nLeds : Nat
  rxqDepth : Nat
  t0h : Nat
  t0l : Nat
  t1h : Nat
  t1l : Nat
  tTol : Nat
  tLatch : Nat
  /-- `T_RESET(part)`, the strip's own latch interval (R228). -/
  tReset : Nat
  /-- `F_CLK`, the frequency at release from reset (R9, R282). It may change later (R227): `State.fClk` (log 13). -/
  fClk : Nat
  /-- `BITCLK_DIV`, set before any push (R9, R263, R282). It may be set anew later (R227): `State.bitclkDiv`. -/
  bitclkDiv : Nat
  /-- The calibration interval, set with the divider (R225, R227, R282): `State.calInterval`. -/
  calInterval : Nat
deriving DecidableEq, Repr

/-- The six TYPE values (R84). -/
def Params.types (c : Params) : List Byte :=
  [c.typeEmpty, c.typeTest, c.typeLedCtrl, c.typeLedData, c.typeBusy, c.typeReady]

/-- The four LED_CTRL sub-command values (R85). -/
def Params.subs (c : Params) : List Byte :=
  [c.subSelectBlock, c.subCopy, c.subClear, c.subPush]

/-- The constraints of R9 (and R228 on `T_LATCH`). A configuration that breaks them is refused
(93_implementation_defined.md U2). -/
structure Params.Valid (c : Params) : Prop where
  types_distinct : c.types.Nodup
  start_no_type : c.start ∉ c.types
  subs_distinct : c.subs.Nodup
  maxData_pos : 1 ≤ c.maxData
  maxData_le : c.maxData ≤ 255
  nLeds_pos : 1 ≤ c.nLeds
  rxqDepth_pos : 1 ≤ c.rxqDepth
  highs : c.t0h < c.t1h
  lows : c.t1l < c.t0l
  latch : c.tReset ≤ c.tLatch

/-- `Params.Valid` as a test the step runs. -/
def Params.ok (c : Params) : Bool :=
  decide (1 ≤ c.maxData) && decide (c.maxData ≤ 255) && decide (1 ≤ c.nLeds) && decide (1 ≤ c.rxqDepth) &&
  decide (c.t0h < c.t1h) && decide (c.t1l < c.t0l) && decide (c.tReset ≤ c.tLatch) &&
  decide c.types.Nodup && decide (c.start ∉ c.types) && decide c.subs.Nodup

/-- The reference configuration RC of R9; bit durations from R226. DESIGN CHOICE (log 14): `T_LATCH` and
`T_RESET` are 50 us, the first of the two figures R228 reports. DESIGN CHOICE (log 13): R9 gives `F_CLK` and
`BITCLK_DIV` no reference value, and no rule gives the calibration interval one; they are 0. -/
def Params.reference : Params where
  start := 0x7E
  typeEmpty := 0x00
  typeTest := 0x01
  typeLedCtrl := 0x02
  typeLedData := 0x03
  typeBusy := 0x04
  typeReady := 0x05
  subSelectBlock := 0x00
  subCopy := 0x01
  subClear := 0x02
  subPush := 0x03
  maxData := 32
  nLeds := 64
  rxqDepth := 1
  t0h := 350
  t0l := 800
  t1h := 700
  t1l := 600
  tTol := 150
  tLatch := 50000
  tReset := 50000
  fClk := 0
  bitclkDiv := 0
  calInterval := 0

/-- R24, D19: the data bytes of a packet buffer at and above its length are unspecified. The first argument
numbers the draw, the second is the byte's index. Nothing constrains the value (log 5). -/
opaque Config.freeByte : Nat → Nat → Byte

/-- A data byte below a message's length that the host did not supply: the spec's packets always carry
`data[0..MAX_DATA)` (R112), so it states no value for one (log 6). -/
opaque Config.unsuppliedByte : Nat → Byte

/-- R292: the LED output of a push made after `F_CLK` changed without recomputing the bit-clock settings is
any symbol sequence; here, what one render or latch step of such a push adds to it. The argument numbers the draw (log 13). -/
opaque Config.freeSymbols : Nat → List LedSym

end Sys2Proof
end

