-- ==== Sys2Proof/Syntax.lean ====
section
/-! DEFINITION. The packets, the commands a packet decodes to, the instructions (one constructor per row of
spec/opcode_table.json), the host's requests, and the turns of the agents. -/

namespace Sys2Proof

/-- `XferState` (R25). -/
inductive XferState where
  | init
  | type
  | length
  | data
  | checksum
  | post
  | done
deriving DecidableEq, Repr

/-- A packet as a host request carries it: `p = (type, length, data[0..MAX_DATA))` (R112, R170). -/
structure Message where
  type : Byte
  length : Byte
  data : List Byte
deriving DecidableEq, Repr

/-- A packet buffer, and what `take_received` returns: all five fields (R22, R23, R148). -/
structure Packet where
  type : Byte
  length : Byte
  data : List Byte
  checksum : Byte
  xfer : XferState
deriving DecidableEq, Repr

/-- A returned packet as the operand of a later request (R170: "normally the result of take_received"). -/
def Packet.message (p : Packet) : Message := ⟨p.type, p.length, p.data⟩

/-- One LED_DATA group `(index, R, G, B)` (R91). -/
structure Group where
  index : Byte
  r : Byte
  g : Byte
  b : Byte
deriving DecidableEq, Repr

/-- What a packet decodes to (R97): one constructor per frame row of the opcode table, with every data byte
of the packet, the ignored ones too. -/
inductive Command where
  | empty (payload : List Byte)
  | test (payload : List Byte)
  | ctrlNone
  /-- `block = data[1]`, absent when L < 2; `extra = data[2..L)` is ignored (R87). -/
  | selblk (block : Option Byte) (extra : List Byte)
  /-- `src = data[1]`, absent when L < 2; `dests = data[2..L)` (R88). -/
  | copy (src : Option Byte) (dests : List Byte)
  | clear (extra : List Byte)
  | push (extra : List Byte)
  | ctrlReserved (sub : Byte) (args : List Byte)
  /-- The complete groups, then the `L mod 4` trailing bytes (R91). -/
  | leddata (groups : List Group) (trailing : List Byte)
  | busy (payload : List Byte)
  | ready (payload : List Byte)
  | typeUnassigned (ty : Byte) (payload : List Byte)
deriving DecidableEq, Repr

/-- The instructions: the twelve frame rows (the dispatch of a packet that decodes to the row), the five
host-port rows, the two event rows and the environment row (R100). -/
inductive Instr where
  | empty (payload : List Byte)
  | test (payload : List Byte)
  | ctrlNone
  | selblk (block : Option Byte) (extra : List Byte)
  | copy (src : Option Byte) (dests : List Byte)
  | clear (extra : List Byte)
  | push (extra : List Byte)
  | ctrlReserved (sub : Byte) (args : List Byte)
  | leddata (groups : List Group) (trailing : List Byte)
  | busy (payload : List Byte)
  | ready (payload : List Byte)
  | typeUnassigned (ty : Byte) (payload : List Byte)
  | send (m : Message)
  | sendDropped (m : Message)
  | takeReceived
  | dispatch (m : Message)
  | readStatus
  | byteSent
  | byteReceived
  | rxArrive (b : Byte)
deriving DecidableEq, Repr

/-- The frame row's instruction. -/
def Command.toInstr : Command → Instr
  | .empty p => .empty p
  | .test p => .test p
  | .ctrlNone => .ctrlNone
  | .selblk b e => .selblk b e
  | .copy s d => .copy s d
  | .clear e => .clear e
  | .push e => .push e
  | .ctrlReserved k a => .ctrlReserved k a
  | .leddata g t => .leddata g t
  | .busy p => .busy p
  | .ready p => .ready p
  | .typeUnassigned t p => .typeUnassigned t p

/-- The host-port requests (R265) as the host issues them. `dispatchTaken` is `dispatch(p)` with `p` the
packet the last `take_received` returned (R76, R170). -/
inductive HostRequest where
  | send (m : Message)
  | takeReceived
  | dispatch (m : Message)
  | dispatchTaken
  | readStatus
deriving DecidableEq, Repr

/-- Whose turn it is (R250): the five agents, reset (R280), and the platform's two acts on the clock
(R227, R292). -/
inductive Turn where
  | host
  | byteSent
  | byteReceived
  | rxArrive (b : Byte)
  | sequencer
  | reset
  /-- `F_CLK` is `f` from here on, and the bit-clock settings stay as they are. -/
  | clockChange (f : Nat)
  /-- `BITCLK_DIV` and the calibration interval are recomputed for the present `F_CLK`: they become `div` and
  `cal`. The function of `F_CLK` that gives the two is not in the source (R225), so the values are the platform's. -/
  | retune (div cal : Nat)
deriving DecidableEq, Repr

end Sys2Proof
end

