-- ==== Sys2Proof/WellFormed.lean ====
section
/-! DEFINITION. Which instructions are well formed under a configuration: a packet of at most `MAX_DATA` data
bytes (R99), operands in the shape the decoder gives them, and requests whose message supplies its data. -/

namespace Sys2Proof

/-- The number of data bytes of a command's packet. -/
def Command.size : Command → Nat
  | .empty p => p.length
  | .test p => p.length
  | .ctrlNone => 0
  | .selblk b e => 1 + b.toList.length + e.length
  | .copy s d => 1 + s.toList.length + d.length
  | .clear e => 1 + e.length
  | .push e => 1 + e.length
  | .ctrlReserved _ a => 1 + a.length
  | .leddata g t => 4 * g.length + t.length
  | .busy p => p.length
  | .ready p => p.length
  | .typeUnassigned _ p => p.length

/-- What each row's operands must satisfy beside the length: no byte follows a missing operand (R87, R88), a
reserved sub-command is none of the four (R94), trailing bytes do not fill a group (R91), an unassigned TYPE
is none of the six (R93). -/
def Command.shapeOk (c : Params) : Command → Bool
  | .empty _ => true
  | .test _ => true
  | .ctrlNone => true
  | .selblk b e => b.isSome || e.isEmpty
  | .copy s d => s.isSome || d.isEmpty
  | .clear _ => true
  | .push _ => true
  | .ctrlReserved k _ => decide (k ∉ c.subs)
  | .leddata _ t => decide (t.length < 4)
  | .busy _ => true
  | .ready _ => true
  | .typeUnassigned t _ => decide (t ∉ c.types)

/-- A well-formed command (R99: "valid only if its length is at most MAX_DATA"). -/
def Command.wf (c : Params) (k : Command) : Bool :=
  decide (k.size ≤ c.maxData) && k.shapeOk c

/-- A request's message supplies every data byte below `min(length, MAX_DATA)`. -/
def Message.wf (c : Params) (m : Message) : Bool :=
  decide (min m.length.toNat c.maxData ≤ m.data.length)

/-- Well-formed instructions. -/
def Instr.wf (c : Params) : Instr → Bool
  | .empty p => (Command.empty p).wf c
  | .test p => (Command.test p).wf c
  | .ctrlNone => Command.ctrlNone.wf c
  | .selblk b e => (Command.selblk b e).wf c
  | .copy s d => (Command.copy s d).wf c
  | .clear e => (Command.clear e).wf c
  | .push e => (Command.push e).wf c
  | .ctrlReserved k a => (Command.ctrlReserved k a).wf c
  | .leddata g t => (Command.leddata g t).wf c
  | .busy p => (Command.busy p).wf c
  | .ready p => (Command.ready p).wf c
  | .typeUnassigned t p => (Command.typeUnassigned t p).wf c
  | .send m => m.wf c
  | .sendDropped m => m.wf c
  | .takeReceived => true
  | .dispatch m => m.wf c
  | .readStatus => true
  | .byteSent => true
  | .byteReceived => true
  | .rxArrive _ => true

end Sys2Proof
end

