-- ==== Sys2Proof/Decode.lean ====
section
/-! DEFINITION. The checksum (R110), the decode of a packet (R97) and of a frame's bytes (R80, R81, R83), total
on any bytes and rejecting by name; then the encoders written from the same tables (R80, R87 to R91, R98, R99);
then the words of the opcode table. -/

namespace Sys2Proof

/-- `cks(t, l, d)`: the running exclusive-or of type, length and every data byte (R110). -/
def cks (t l : Byte) (d : List Byte) : Byte :=
  d.foldl (· ^^^ ·) (t ^^^ l)

/-- `min(length, MAX_DATA)` as a byte (R112, R144). -/
def clampLen (c : Params) (l : Byte) : Byte :=
  BitVec.ofNat 8 (min l.toNat c.maxData)

/-- `L = min(p.length, MAX_DATA)` (R97, R112). -/
def Message.len (c : Params) (m : Message) : Nat :=
  min m.length.toNat c.maxData

/-- `p.data[0..L)`. A byte the host did not supply is a free value (log 6). -/
def Message.payload (c : Params) (m : Message) : List Byte :=
  m.data.take (m.len c) ++ (List.range' m.data.length (m.len c - m.data.length)).map Config.unsuppliedByte

/-- The complete groups of LED_DATA and the trailing bytes (R91). -/
def splitGroups : List Byte → List Group × List Byte
  | i :: r :: g :: b :: rest => (⟨i, r, g, b⟩ :: (splitGroups rest).1, (splitGroups rest).2)
  | rest => ([], rest)

/-- LED_CTRL's decode on `data[0..L)` (R97, R85, R87 to R90, R94). -/
def decodeCtrl (c : Params) : List Byte → Command
  | [] => .ctrlNone
  | k :: args =>
    if k = c.subSelectBlock then .selblk args.head? args.tail
    else if k = c.subCopy then .copy args.head? args.tail
    else if k = c.subClear then .clear args
    else if k = c.subPush then .push args
    else .ctrlReserved k args

/-- The decode on a TYPE byte and the data bytes `data[0..L)`, in R97's order of tests. -/
def decodeData (c : Params) (t : Byte) (d : List Byte) : Command :=
  if t = c.typeBusy then .busy d
  else if t = c.typeReady then .ready d
  else if t = c.typeLedData then .leddata (splitGroups d).1 (splitGroups d).2
  else if t = c.typeLedCtrl then decodeCtrl c d
  else if t = c.typeEmpty then .empty d
  else if t = c.typeTest then .test d
  else .typeUnassigned t d

/-- `decode(p)` (R97), complete over every packet. -/
def decodePacket (c : Params) (m : Message) : Command :=
  decodeData c m.type (m.payload c)

/-- Why a byte sequence is no frame. No value of TYPE, sub-command or CHECKSUM is a reason: TYPE is not
validated (R93, R143) and the checksum is advisory (R146). -/
inductive FrameReject where
  /-- there is no byte -/
  | empty
  /-- the first byte is not START (R82, R141) -/
  | noStart
  /-- the bytes end before TYPE -/
  | noType
  /-- the bytes end before LENGTH -/
  | noLength
  /-- the bytes end before `min(LENGTH, MAX_DATA)` data bytes -/
  | shortData
  /-- the bytes end before CHECKSUM -/
  | noChecksum
deriving DecidableEq, Repr

/-- A frame as the receiver stores it: the length is `min(LENGTH, MAX_DATA)` (R83, R96, R144). -/
structure Frame where
  type : Byte
  length : Byte
  data : List Byte
  checksum : Byte
deriving DecidableEq, Repr

/-- The advisory verification (R146). -/
def Frame.verified (f : Frame) : Bool :=
  f.checksum == cks f.type f.length f.data

/-- The packet the frame carries. -/
def Frame.message (f : Frame) : Message := ⟨f.type, f.length, f.data⟩

/-- One frame from the front of a byte sequence, with the bytes after it (R80, R81, R96). -/
def decodeFrame (c : Params) : List Byte → Except FrameReject (Frame × List Byte)
  | [] => .error .empty
  | s :: r =>
    if s = c.start then
      match r with
      | [] => .error .noType
      | [_] => .error .noLength
      | t :: l :: body =>
        if body.length < min l.toNat c.maxData then .error .shortData
        else
          match body.drop (min l.toNat c.maxData) with
          | [] => .error .noChecksum
          | k :: rest => .ok (⟨t, clampLen c l, body.take (min l.toNat c.maxData), k⟩, rest)
    else .error .noStart

/-- The command in a frame's bytes, with the bytes after the frame. -/
def decode (c : Params) (bytes : List Byte) : Except FrameReject (Command × List Byte) :=
  match decodeFrame c bytes with
  | .error e => .error e
  | .ok (f, rest) => .ok (decodePacket c f.message, rest)

/-- `FRAME(T, [d0, ..., dL-1])` (R98): START, TYPE, LENGTH, the data bytes, CHECKSUM, with the length clamped as
a send clamps it (R112). -/
def encodeFrame (c : Params) (m : Message) : List Byte :=
  c.start :: m.type :: clampLen c m.length :: (m.payload c ++ [cks m.type (clampLen c m.length) (m.payload c)])

/-- A group's four bytes (R91). -/
def Group.bytes (g : Group) : List Byte := [g.index, g.r, g.g, g.b]

/-- The TYPE byte of a command's packet (R84). -/
def Command.type (c : Params) : Command → Byte
  | .empty _ => c.typeEmpty
  | .test _ => c.typeTest
  | .ctrlNone => c.typeLedCtrl
  | .selblk _ _ => c.typeLedCtrl
  | .copy _ _ => c.typeLedCtrl
  | .clear _ => c.typeLedCtrl
  | .push _ => c.typeLedCtrl
  | .ctrlReserved _ _ => c.typeLedCtrl
  | .leddata _ _ => c.typeLedData
  | .busy _ => c.typeBusy
  | .ready _ => c.typeReady
  | .typeUnassigned t _ => t

/-- The data bytes of a command's packet (R87 to R92, R99). -/
def Command.data (c : Params) : Command → List Byte
  | .empty p => p
  | .test p => p
  | .ctrlNone => []
  | .selblk b e => c.subSelectBlock :: (b.toList ++ e)
  | .copy s d => c.subCopy :: (s.toList ++ d)
  | .clear e => c.subClear :: e
  | .push e => c.subPush :: e
  | .ctrlReserved k a => k :: a
  | .leddata g t => g.flatMap Group.bytes ++ t
  | .busy p => p
  | .ready p => p
  | .typeUnassigned _ p => p

/-- A command's packet (R99). -/
def encodeCommand (c : Params) (k : Command) : Message :=
  ⟨k.type c, BitVec.ofNat 8 (k.data c).length, k.data c⟩

/-- A command's words: the bytes of its frame (R80). -/
def encode (c : Params) (k : Command) : List Byte :=
  encodeFrame c (encodeCommand c k)

/-- The instruction a host request is, given `tx_ready` and the packet last taken: a `send` while
`tx_ready = 0` is the row send.dropped (R113); `dispatchTaken` with nothing taken is no request. -/
def decodeRequest (txReady : Bool) (taken : Option Packet) : HostRequest → Option Instr
  | .send m => some (if txReady then .send m else .sendDropped m)
  | .takeReceived => some .takeReceived
  | .dispatch m => some (.dispatch m)
  | .dispatchTaken => taken.map fun p => .dispatch p.message
  | .readStatus => some .readStatus

/-- The packet of an opcode-table word: the 16-bit key is `TYPE << 8 | data[0]`, and bits from 16 up are the
bytes `data[1], data[2], ...`. The packet has as many data bytes as the word gives, at least four, so that every
row has its operands (zeros), and at most `MAX_DATA` (log 9). -/
def tableMessage (c : Params) (nbits w : Nat) : Message :=
  let n := min c.maxData (max 4 (nbits / 8 - 1))
  ⟨BitVec.ofNat 8 (w / 256), BitVec.ofNat 8 n,
    (BitVec.ofNat 8 w :: (List.range 255).map fun k => BitVec.ofNat 8 (w / 2 ^ (16 + 8 * k))).take n⟩

/-- The instruction the decoder reads from an opcode-table word, under the reference configuration, which is
the one the table's match values are for. -/
def decodeTableWord (nbits w : Nat) : Option Instr :=
  match decode Params.reference (encodeFrame Params.reference (tableMessage Params.reference nbits w)) with
  | .ok (k, _) => some k.toInstr
  | .error _ => none

end Sys2Proof
end

