-- ==== Sys2Proof/Machine/State.lean ====
section
/-! DEFINITION. The state of the block (10_state.md R22 to R47), its value after reset (R51), the parameters it
runs under (R9), the model's own fields, and the reasons a step can stop. -/

namespace Sys2Proof.Machine

/-- `push_state` (R40). -/
inductive PushState where
  | idle
  | waitTx1
  | waitBusyDone
  | render
  | latch
  | waitTx2
deriving DecidableEq, Repr

/-- `err_kind` (R34), and the kinds a `raise` records (R251). UnrecognizedSubcommand has no code and is never
raised (R255). -/
inductive ErrKind where
  | none
  | checksumMismatch
  | sendWhileBusy
  | indexOutOfRange
deriving DecidableEq, Repr

/-- The state. The fields down to `ledOut` are the spec's (R22 to R47), under its names. -/
structure State where
  /-- R22; `txbuf.xfer` is `tx_state`. -/
  txbuf : Packet
  txIdx : Byte
  /-- R23; `rxbuf.xfer` is `rx_state`. -/
  rxbuf : Packet
  rxIdx : Byte
  txReady : Bool
  txBusy : Bool
  rxReady : Bool
  rxBusy : Bool
  txError : Bool
  rxError : Bool
  cmdFault : Bool
  errKind : ErrKind
  okToSend : Bool
  activeBlock : Half
  pix : List Pixel
  pushState : PushState
  serPix : Nat
  serBit : Fin 24
  evtGate : Bool
  ledLine : Level
  pushDone : Bool
  rxq : List Byte
  txInflight : Bool
  wireTx : List Byte
  ledOut : List LedSym
  /-- The parameters (R9); no step writes them (log 1). -/
  cfg : Params
  /-- `F_CLK` as it is (R9, R227; log 13). -/
  fClk : Nat
  /-- `BITCLK_DIV` as it is set (R9, R227, R263). Only the bit's waveform depends on it (R225). -/
  bitclkDiv : Nat
  /-- The calibration interval as it is set (R225, R227). -/
  calInterval : Nat
  /-- The two settings have been recomputed since the last change of `F_CLK` (R227, R282, R292; log 13). -/
  tuned : Bool
  /-- The LED output of the push in progress is unspecified (R292, R227; log 13). -/
  ledOpen : Bool
  /-- The model's own: the requests the host will issue, oldest first (log 3). -/
  hostq : List HostRequest
  /-- The model's own: whose turn comes next (log 2). -/
  sched : List Turn
  /-- The model's own: numbers the free values (log 5). -/
  draws : Nat
  /-- The model's own: what the last `take_received` returned (log 7). -/
  takeResult : Option Packet
  /-- The model's own: the `(STATUS, ERRKIND)` the last `read_status` returned (log 7). -/
  statusResult : Option (Byte × Byte)
deriving DecidableEq, Repr

/-- Why a step stops in a fault. An obligation says that none is raised from a state that meets the
invariant of Safety.lean. -/
inductive Fault where
  /-- A BufRead or BufWrite at an index where R13 does not define it; raised by `byte_sent` and
  `byte_received` in state Data. Safe: the machine stops where the spec gives no effect. -/
  | bufferIndex
  /-- A PixRead or PixWrite at an index where R13 does not define it; raised by COPY, LEDDATA and the
  render step. Safe, as above. -/
  | pixelIndex
  /-- A received byte with `rx_busy = 1` in state Init, Post or Done, for which R143 to R146 give no
  transition; raised by `byte_received`. Safe, as above. -/
  | rxNoTransition
deriving DecidableEq, Repr

/-- Why a step is refused. -/
inductive Refusal where
  /-- An instruction without a meaning, by its mnemonic; raised by an arm of `exec` only. Safe. -/
  | notModelled (mnemonic : String)
  /-- The configuration breaks the constraints of R9; raised by `step`. 93_implementation_defined.md U2 has
  the model refuse it. Safe. -/
  | badParameters
deriving DecidableEq, Repr

/-- A packet buffer after reset (R51). -/
def resetPacket (c : Params) : Packet :=
  ⟨0, 0, List.replicate c.maxData 0, 0, .init⟩

/-- The state after reset under a configuration (R51, R280). The clock and its settings are those of the
configuration, with boot step 2 of R282 done (log 13). The model's own fields, `draws` (log 5) and the empty queues
and results among them, are DESIGN CHOICE. -/
def State.resetOf (c : Params) : State where
  txbuf := resetPacket c
  txIdx := 0
  rxbuf := resetPacket c
  rxIdx := 0
  txReady := true
  txBusy := false
  rxReady := false
  rxBusy := false
  txError := false
  rxError := false
  cmdFault := false
  errKind := .none
  okToSend := true
  activeBlock := 0
  pix := List.replicate c.nLeds Pixel.black
  pushState := .idle
  serPix := 0
  serBit := 0
  evtGate := false
  ledLine := .low
  pushDone := false
  rxq := []
  txInflight := false
  wireTx := []
  ledOut := []
  cfg := c
  fClk := c.fClk
  bitclkDiv := c.bitclkDiv
  calInterval := c.calInterval
  tuned := true
  ledOpen := false
  hostq := []
  sched := []
  draws := 0
  takeResult := none
  statusResult := none

/-- The machine right after reset, under the reference configuration (log 1). -/
def State.reset : State := State.resetOf Params.reference

end Sys2Proof.Machine
end

