-- ==== Sys2Proof/Machine/Ops.lean ====
section
/-! DEFINITION. The named operations over the block's storage spaces and outputs (R13, R14), the recording of
an error (R15, R252 to R257: the block's only exception mechanism, with no entry and no return), the draw of
free data bytes (R24), and reset (R280). -/

namespace Sys2Proof.Machine

/-- The outcome of an effect that can stop at an index where R13 defines nothing. -/
def finish : Except Fault State → Host.Outcome State Fault Refusal
  | .ok s => .next s
  | .error f => .fault f

/-- `PixRead(i)` (R13). -/
def pixRead (s : State) (i : Nat) : Except Fault Pixel :=
  match s.pix[i]? with
  | some p => .ok p
  | none => .error .pixelIndex

/-- `PixWrite(i, p)` (R13, R67: all three channels together). -/
def pixWrite (i : Nat) (p : Pixel) (s : State) : Except Fault State :=
  if i < s.pix.length then .ok { s with pix := s.pix.set i p } else .error .pixelIndex

/-- `BufRead(buf, i)` (R13). -/
def bufRead (b : Packet) (i : Nat) : Except Fault Byte :=
  match b.data[i]? with
  | some v => .ok v
  | none => .error .bufferIndex

/-- `BufWrite(buf, i, v)` (R13). -/
def bufWrite (b : Packet) (i : Nat) (v : Byte) : Except Fault Packet :=
  if i < b.data.length then .ok { b with data := b.data.set i v } else .error .bufferIndex

/-- The data bytes at indices `n .. m-1`, drawn free (R24; log 5). -/
def freeTail (draw n m : Nat) : List Byte :=
  (List.range' n (m - n)).map (Config.freeByte draw)

/-- A buffer's data with the bytes at and above `n` drawn free (R24: "must treat buf.data[i] for
i >= buf.length as an unspecified value"). -/
def freeFrom (draw n : Nat) (b : Packet) : Packet :=
  { b with data := b.data.take n ++ freeTail draw n b.data.length }

/-- `SendByte(b); tx_inflight <- 1` (R14, R46). -/
def sendByte (b : Byte) (s : State) : State :=
  { s with wireTx := s.wireTx ++ [b], txInflight := true }

/-- `raise k` (R15, R252 to R254, R256): the kind's flag is set and `err_kind` takes the kind. Nothing else
changes and control goes on (R257). -/
def raiseError (k : ErrKind) (s : State) : State :=
  { s with
    errKind := k
    rxError := if k = .checksumMismatch then true else s.rxError
    txError := if k = .sendWhileBusy then true else s.txError
    cmdFault := if k = .indexOutOfRange then true else s.cmdFault }

/-- An LED-line symbol reaches the strip as itself, unless the output of the push in progress is unspecified: then
any symbols do (R292; log 13). The line is `Low` when no bit is being emitted (R224). -/
def emitSym (y : LedSym) (s : State) : State :=
  { s with
    ledOut := s.ledOut ++ (if s.ledOpen then Config.freeSymbols s.draws else [y])
    draws := if s.ledOpen then s.draws + 1 else s.draws
    ledLine := .low }

/-- `EmitBit(b)` (R14, R223). -/
def emitBit (b : Bool) (s : State) : State := emitSym (.bit b) s

/-- `EmitLatch()` (R14, R228). -/
def emitLatch (s : State) : State := emitSym .latch s

/-- `F_CLK` is `f` from here on (R227). A change makes the settings stale, and leaves the output of a push in progress
unspecified from here to its end (R292; log 13). -/
def changeClock (f : Nat) (s : State) : State :=
  { s with
    fClk := f
    tuned := s.tuned && f == s.fClk
    ledOpen := s.ledOpen || f != s.fClk }

/-- The two settings are recomputed for the present `F_CLK` (R227, R282). The output of a push already begun is what it
was (R292: "every later push"). -/
def retune (div cal : Nat) (s : State) : State :=
  { s with bitclkDiv := div, calInterval := cal, tuned := true }

/-- Reset (R280): every piece of the block's state to its value of R51, all at once. What lies outside the
block stays: the configuration, the platform's clock, the requests the host has not issued and the results it
holds, the turns to come; and the draw counter, so that no free value is drawn twice (log 15). -/
def resetBlock (s : State) : State :=
  { State.resetOf s.cfg with
    fClk := s.fClk, bitclkDiv := s.bitclkDiv, calInterval := s.calInterval, tuned := s.tuned, hostq := s.hostq,
    sched := s.sched, draws := s.draws, takeResult := s.takeResult, statusResult := s.statusResult }

end Sys2Proof.Machine
end

