-- ==== Sys2Proof/Machine/Operands.lean ====
section
/-! DEFINITION. The operand forms: index resolution (R86), the bounds check (R181), and the wire word of a
pixel (R212). -/

namespace Sys2Proof.Machine

/-- `resolve(x) = active_block & zext_16(x)` (R86). -/
def resolve (activeBlock : Half) (x : Byte) : Half :=
  activeBlock &&& x.zeroExtend 16

/-- The pixel index an index byte names in a state. -/
def index (s : State) (x : Byte) : Nat := (resolve s.activeBlock x).toNat

/-- A resolved index is in range when it is below `N_LEDS` (R181). -/
def inRange (s : State) (x : Byte) : Bool := decide (index s x < s.cfg.nLeds)

/-- The pixel a group writes (R180). -/
def groupPixel (g : Group) : Pixel := ⟨g.r, g.g, g.b⟩

/-- `grb(p) = {g, r, b}` (R212). -/
def grb (p : Pixel) : Wire24 :=
  (p.g.zeroExtend 24 <<< 16) ||| (p.r.zeroExtend 24 <<< 8) ||| p.b.zeroExtend 24

/-- The 24 bits of a pixel, most significant first (R213). -/
def pixelBits (p : Pixel) : List Bool :=
  (List.range 24).map fun k => (grb p).getLsbD (23 - k)

/-- The bit stream of a push: every entry in index order (R213). -/
def bitStream (ps : List Pixel) : List Bool := ps.flatMap pixelBits

end Sys2Proof.Machine
end

