-- ==== Sys2Proof/Machine/Dispatcher.lean ====
section
/-! DEFINITION. The command dispatcher (42_dispatcher.md): the meaning of each frame row, and the host request
`dispatch` that selects one by decoding its packet. -/

namespace Sys2Proof.Machine

/-- The dispatcher's entry test (R170): with `cmd_fault = 1` a packet is refused and no state changes. Every frame
row's meaning begins with it (log 10). -/
def admitted (effect : State → Except Fault State) (s : State) : Host.Outcome State Fault Refusal :=
  if s.cmdFault then .next s else finish (effect s)

/-- The rest of a COPY: `pix[resolve(d)] <- v` for each destination in order, ending at the first one out of range
(R176, R181). -/
def copyTo (v : Pixel) : List Byte → State → Except Fault State
  | [], s => .ok s
  | d :: ds, s =>
    if inRange s d then
      match pixWrite (index s d) v s with
      | .error f => .error f
      | .ok t => copyTo v ds t
    else .ok (raiseError .indexOutOfRange s)

/-- Copy (R176): the source is checked and read once, before any write. -/
def copyFrom (src : Byte) (dests : List Byte) (s : State) : Except Fault State :=
  if inRange s src then
    match pixRead s (index s src) with
    | .error f => .error f
    | .ok v => copyTo v dests s
  else .ok (raiseError .indexOutOfRange s)

/-- LED_DATA's groups in order, ending at the first one out of range (R180, R181). -/
def writeGroups : List Group → State → Except Fault State
  | [], s => .ok s
  | g :: gs, s =>
    if inRange s g.index then
      match pixWrite (index s g.index) (groupPixel g) s with
      | .error f => .error f
      | .ok t => writeGroups gs t
    else .ok (raiseError .indexOutOfRange s)

/-- EMPTY: no effect (R173). -/
def execEmpty (_payload : List Byte) (s : State) : Host.Outcome State Fault Refusal :=
  admitted (fun s => .ok s) s

/-- TEST: no effect at dispatch (R173, R269). -/
def execTest (_payload : List Byte) (s : State) : Host.Outcome State Fault Refusal :=
  admitted (fun s => .ok s) s

/-- LED_CTRL with no data: no effect (R174). -/
def execCtrlNone (s : State) : Host.Outcome State Fault Refusal :=
  admitted (fun s => .ok s) s

/-- SelectBlock: `active_block <- zext_16(b)`; without an operand no effect (R175, R38). -/
def execSelblk (block : Option Byte) (_extra : List Byte) (s : State) : Host.Outcome State Fault Refusal :=
  admitted (fun s =>
    match block with
    | none => .ok s
    | some b => .ok { s with activeBlock := b.zeroExtend 16 }) s

/-- Copy; without a source no effect (R176). -/
def execCopy (src : Option Byte) (dests : List Byte) (s : State) : Host.Outcome State Fault Refusal :=
  admitted (fun s =>
    match src with
    | none => .ok s
    | some x => copyFrom x dests s) s

/-- Clear: every entry, whatever `active_block` holds (R177). -/
def execClear (_extra : List Byte) (s : State) : Host.Outcome State Fault Refusal :=
  admitted (fun s => .ok { s with pix := s.pix.map fun _ => Pixel.black }) s

/-- Push: starts the sequencer; the host is held until `push_done = 1` (R178, R266). A push made with stale bit-clock
settings has its whole LED output unspecified (R292, R283; log 13). -/
def execPush (_extra : List Byte) (s : State) : Host.Outcome State Fault Refusal :=
  admitted (fun s => .ok { s with pushDone := false, pushState := .waitTx1, ledOpen := !s.tuned }) s

/-- A reserved sub-command: ignored, and nothing is recorded (R179, R255). -/
def execCtrlReserved (_sub : Byte) (_args : List Byte) (s : State) : Host.Outcome State Fault Refusal :=
  admitted (fun s => .ok s) s

/-- LED_DATA; the trailing bytes are ignored (R180, R91). -/
def execLeddata (groups : List Group) (_trailing : List Byte) (s : State) : Host.Outcome State Fault Refusal :=
  admitted (fun s => writeGroups groups s) s

/-- BUSY: `ok_to_send <- 0` (R171). -/
def execBusy (_payload : List Byte) (s : State) : Host.Outcome State Fault Refusal :=
  admitted (fun s => .ok { s with okToSend := false }) s

/-- READY: `ok_to_send <- 1` (R172). -/
def execReady (_payload : List Byte) (s : State) : Host.Outcome State Fault Refusal :=
  admitted (fun s => .ok { s with okToSend := true }) s

/-- An unassigned TYPE: no effect and no error (R173, R93). -/
def execTypeUnassigned (_ty : Byte) (_payload : List Byte) (s : State) : Host.Outcome State Fault Refusal :=
  admitted (fun s => .ok s) s

/-- The frame row a decoded packet selects. -/
def execCommand (k : Command) (s : State) : Host.Outcome State Fault Refusal :=
  match k with
  | .empty p => execEmpty p s
  | .test p => execTest p s
  | .ctrlNone => execCtrlNone s
  | .selblk b e => execSelblk b e s
  | .copy x d => execCopy x d s
  | .clear e => execClear e s
  | .push e => execPush e s
  | .ctrlReserved c a => execCtrlReserved c a s
  | .leddata g t => execLeddata g t s
  | .busy p => execBusy p s
  | .ready p => execReady p s
  | .typeUnassigned t p => execTypeUnassigned t p s

/-- The host request `dispatch(p)` (R170): refused while `cmd_fault = 1`, and otherwise what `decode(p)` selects.
It tests neither `rx_ready` nor `rx_error` (R294). -/
def execDispatch (m : Message) (s : State) : Host.Outcome State Fault Refusal :=
  if s.cmdFault then .next s else execCommand (decodePacket s.cfg m) s

end Sys2Proof.Machine
end

