-- ==== Sys2Proof/Machine/Flags.lean ====
section
/-! DEFINITION. The host-visible status views (R48), with the codes of `err_kind` (R34) and of the transfer
state (R25). -/

namespace Sys2Proof.Machine

/-- The code of an error kind (R34, R251). -/
def ErrKind.code : ErrKind → BitVec 2
  | .none => 0
  | .checksumMismatch => 1
  | .sendWhileBusy => 2
  | .indexOutOfRange => 3

/-- The code of a transfer state, 0 to 6 in the order listed (R25); visible only through `take_received`. -/
def xferCode : XferState → Byte
  | .init => 0
  | .type => 1
  | .length => 2
  | .data => 3
  | .checksum => 4
  | .post => 5
  | .done => 6

/-- A flag at bit `i` of a byte. -/
def flagAt (i : Nat) (b : Bool) : Byte := (BitVec.ofBool b).zeroExtend 8 <<< i

/-- `STATUS` (R48): bits 0 to 7 are tx_ready, tx_busy, tx_error, rx_ready, rx_busy, rx_error, cmd_fault,
ok_to_send. -/
def status (s : State) : Byte :=
  flagAt 0 s.txReady ||| flagAt 1 s.txBusy ||| flagAt 2 s.txError ||| flagAt 3 s.rxReady |||
  flagAt 4 s.rxBusy ||| flagAt 5 s.rxError ||| flagAt 6 s.cmdFault ||| flagAt 7 s.okToSend

/-- `ERRKIND` (R48): bits 1:0 are `err_kind`, bits 7:2 read 0. -/
def errKindView (s : State) : Byte := s.errKind.code.zeroExtend 8

end Sys2Proof.Machine
end

