-- ==== Sys2Proof/Machine/HostPort.lean ====
section
/-! DEFINITION. The host port (60_exceptions.md section 6): the request `read_status`, and when the host is
held. `send` stands in PacketTx.lean, `take_received` in PacketRx.lean, `dispatch` in Dispatcher.lean. -/

namespace Sys2Proof.Machine

/-- `read_status()` (R265): both views, and no state of the block changes (R69). The result is kept in the model's
own `statusResult` (log 7). -/
def execReadStatus (s : State) : Host.Outcome State Fault Refusal :=
  .next { s with statusResult := some (status s, errKindView s) }

/-- The host is held while a Push it dispatched has not completed: `push_state` is not Idle (R50) and `push_done` is
not yet 1 (R266). In a state that meets the invariant the first implies the second (log 3). -/
def hostHeld (s : State) : Bool := decide (s.pushState ≠ .idle) && !s.pushDone

end Sys2Proof.Machine
end

