-- ==== Sys2Proof/Machine/PacketRx.lean ====
section
/-! DEFINITION. The receive side (41_packet_rx.md): byte arrival, the `byte_received` event, and the host
request `take_received`. -/

namespace Sys2Proof.Machine

/-- `rx_arrive(b)` (R149): always enabled; a byte beyond `RXQ_DEPTH` is lost. -/
def execRxArrive (b : Byte) (s : State) : Host.Outcome State Fault Refusal :=
  .next (if s.rxq.length < s.cfg.rxqDepth then { s with rxq := s.rxq ++ [b] } else s)

/-- The RX machine enters state `x`. -/
def rxGoto (x : XferState) (s : State) : State :=
  { s with rxbuf := { s.rxbuf with xfer := x } }

/-- Frame start (R142). The buffer is not cleared; its bytes at and above the old length are unspecified from
here on (R24; log 5). -/
def rxFrameStart (s : State) : State :=
  rxGoto .type
    { s with
      rxbuf := freeFrom s.draws s.rxbuf.length.toNat s.rxbuf
      draws := s.draws + 1
      rxBusy := true
      rxReady := false
      rxError := false }

/-- R143: any TYPE value is stored. -/
def rxTypeStep (b : Byte) (s : State) : State :=
  rxGoto .length { s with rxbuf := { s.rxbuf with type := b } }

/-- R144: the length stored is `min(b, MAX_DATA)`; the bytes at and above it are unspecified (R24; log 5). -/
def rxLengthStep (b : Byte) (s : State) : State :=
  rxGoto (if clampLen s.cfg b = 0 then .checksum else .data)
    { s with
      rxbuf := { freeFrom s.draws (clampLen s.cfg b).toNat s.rxbuf with length := clampLen s.cfg b }
      draws := s.draws + 1
      rxIdx := 0 }

/-- R145. -/
def rxDataStep (b : Byte) (s : State) : Except Fault State :=
  match bufWrite s.rxbuf s.rxIdx.toNat b with
  | .error f => .error f
  | .ok buf =>
    .ok (rxGoto (if s.rxIdx + 1 = s.rxbuf.length then .checksum else .data)
      { s with rxbuf := buf, rxIdx := s.rxIdx + 1 })

/-- The checksum the receiver computes over the stored packet (R146). -/
def rxChecksum (s : State) : Byte :=
  cks s.rxbuf.type s.rxbuf.length (s.rxbuf.data.take s.rxbuf.length.toNat)

/-- R146: verify (advisory) and complete. -/
def rxChecksumStep (b : Byte) (s : State) : State :=
  let s' := if b = rxChecksum s then s else raiseError .checksumMismatch s
  rxGoto .done
    { s' with rxbuf := { s'.rxbuf with checksum := b }, rxBusy := false, rxReady := true }

/-- One received byte (R141 to R147): START is recognised only while idle. -/
def rxStep (b : Byte) (s : State) : Except Fault State :=
  if s.rxBusy then
    match s.rxbuf.xfer with
    | .type => .ok (rxTypeStep b s)
    | .length => .ok (rxLengthStep b s)
    | .data => rxDataStep b s
    | .checksum => .ok (rxChecksumStep b s)
    | .init => .error .rxNoTransition
    | .post => .error .rxNoTransition
    | .done => .error .rxNoTransition
  else if b = s.cfg.start then .ok (rxFrameStart s)
  else .ok s

/-- The `byte_received` event (R140): enabled when `rxq` is non-empty and `evt_gate = 0`, and otherwise no step
is taken (R260). It takes the oldest byte. -/
def execByteReceived (s : State) : Host.Outcome State Fault Refusal :=
  if s.evtGate then .next s
  else
    match s.rxq with
    | [] => .next s
    | b :: rest => finish (rxStep b { s with rxq := rest })

/-- The host request `take_received()` (R148): the result is a copy of `rxbuf`, complete or not, and `rx_ready`
is cleared. The result is kept in the model's own `takeResult` (log 7). -/
def execTakeReceived (s : State) : Host.Outcome State Fault Refusal :=
  .next { s with takeResult := some s.rxbuf, rxReady := false }

end Sys2Proof.Machine
end

