-- ==== Sys2Proof/Machine/PacketTx.lean ====
section
/-! DEFINITION. The transmit side (40_packet_tx.md): the host request `send` and the `byte_sent` event. -/

namespace Sys2Proof.Machine

/-- The TX buffer an accepted send stores (R112): the clamped length, the data below it, the checksum over the
clamped packet. The bytes at and above the length are unspecified (R24; log 5). -/
def sendBuffer (m : Message) (s : State) : Packet where
  type := m.type
  length := clampLen s.cfg m.length
  data := m.payload s.cfg ++ freeTail s.draws (m.len s.cfg) s.txbuf.data.length
  checksum := cks m.type (clampLen s.cfg m.length) (m.payload s.cfg)
  xfer := .type

/-- `send(p)`, accepted: the Init step, which sends START, is part of the request (R112). -/
def sendAccepted (m : Message) (s : State) : State :=
  sendByte s.cfg.start
    { s with
      txbuf := sendBuffer m s
      txError := false
      txReady := false
      txBusy := true
      draws := s.draws + 1 }

/-- `send(p)`, dropped (R113). -/
def sendRefused (s : State) : State := raiseError .sendWhileBusy s

/-- The host request `send(p)`: R112 when `tx_ready = 1`, R113 when it is 0. -/
def execSend (m : Message) (s : State) : Host.Outcome State Fault Refusal :=
  .next (if s.txReady then sendAccepted m s else sendRefused s)

/-- The row send.dropped: the host request `send(p)` made while `tx_ready = 0` (R113). It is the same request as
`send`, so with `tx_ready = 1` it is accepted (log 8). -/
def execSendDropped (m : Message) (s : State) : Host.Outcome State Fault Refusal :=
  .next (if s.txReady = false then sendRefused s else sendAccepted m s)

/-- The TX machine enters state `x`. -/
def txGoto (x : XferState) (s : State) : State :=
  { s with txbuf := { s.txbuf with xfer := x } }

/-- R115. -/
def txTypeStep (s : State) : State :=
  txGoto .length (sendByte s.txbuf.type s)

/-- R116. -/
def txLengthStep (s : State) : State :=
  txGoto (if s.txbuf.length = 0 then .checksum else .data)
    { sendByte s.txbuf.length s with txIdx := 0 }

/-- R117. -/
def txDataStep (s : State) : Except Fault State :=
  match bufRead s.txbuf s.txIdx.toNat with
  | .error f => .error f
  | .ok b =>
    .ok (txGoto (if s.txIdx + 1 = s.txbuf.length then .checksum else .data)
      { sendByte b s with txIdx := s.txIdx + 1 })

/-- R118. -/
def txChecksumStep (s : State) : State :=
  txGoto .post (sendByte s.txbuf.checksum s)

/-- R119. -/
def txPostStep (s : State) : State :=
  txGoto .done { s with txBusy := false, txReady := true }

/-- The one transition for the current `tx_state` (R115 to R120). -/
def txStep (s : State) : Except Fault State :=
  match s.txbuf.xfer with
  | .init => .ok s
  | .type => .ok (txTypeStep s)
  | .length => .ok (txLengthStep s)
  | .data => txDataStep s
  | .checksum => .ok (txChecksumStep s)
  | .post => .ok (txPostStep s)
  | .done => .ok s

/-- The `byte_sent` event (R114): enabled when `tx_inflight = 1` and `evt_gate = 0`, and otherwise no step is
taken (R120 with nothing in flight; R260 while the gate is closed). -/
def execByteSent (s : State) : Host.Outcome State Fault Refusal :=
  if s.txInflight && !s.evtGate then finish (txStep { s with txInflight := false }) else .next s

end Sys2Proof.Machine
end

