-- ==== Sys2Proof/Machine/Dispatch.lean ====
section
/-! DEFINITION. The meaning of each instruction: one arm per constructor of Instr. -/

namespace Sys2Proof.Machine

def exec (i : Instr) (s : State) : Host.Outcome State Fault Refusal :=
  match i with
  | .empty p => Sys2Proof.Machine.execEmpty p s
  | .test p => Sys2Proof.Machine.execTest p s
  | .ctrlNone => Sys2Proof.Machine.execCtrlNone s
  | .selblk b e => Sys2Proof.Machine.execSelblk b e s
  | .copy x d => Sys2Proof.Machine.execCopy x d s
  | .clear e => Sys2Proof.Machine.execClear e s
  | .push e => Sys2Proof.Machine.execPush e s
  | .ctrlReserved k a => Sys2Proof.Machine.execCtrlReserved k a s
  | .leddata g t => Sys2Proof.Machine.execLeddata g t s
  | .busy p => Sys2Proof.Machine.execBusy p s
  | .ready p => Sys2Proof.Machine.execReady p s
  | .typeUnassigned t p => Sys2Proof.Machine.execTypeUnassigned t p s
  | .send m => Sys2Proof.Machine.execSend m s
  | .sendDropped m => Sys2Proof.Machine.execSendDropped m s
  | .takeReceived => Sys2Proof.Machine.execTakeReceived s
  | .dispatch m => Sys2Proof.Machine.execDispatch m s
  | .readStatus => Sys2Proof.Machine.execReadStatus s
  | .byteSent => Sys2Proof.Machine.execByteSent s
  | .byteReceived => Sys2Proof.Machine.execByteReceived s
  | .rxArrive b => Sys2Proof.Machine.execRxArrive b s

end Sys2Proof.Machine
end

