-- ==== Sys2Proof/Machine/OutputDriver.lean ====
section
/-! DEFINITION. The push sequencer (43_output_driver.md R211 to R220): one step of it. -/

namespace Sys2Proof.Machine

/-- A status packet the sequencer sends: length 0, no data (R220). -/
def statusMessage (ty : Byte) : Message := ⟨ty, 0, []⟩

/-- WaitTx1 (R214): send BUSY once `tx_ready = 1`. -/
def pushWaitTx1 (s : State) : State :=
  if s.txReady then { sendAccepted (statusMessage s.cfg.typeBusy) s with pushState := .waitBusyDone } else s

/-- WaitBusyDone (R215): close the gate and start the render once the BUSY frame is out. -/
def pushWaitBusyDone (s : State) : State :=
  if s.txReady then { s with evtGate := true, serPix := 0, serBit := 0, pushState := .render } else s

/-- The render position after one bit (R216). -/
def advance (s : State) : State :=
  { s with
    serBit := s.serBit + 1
    serPix := if s.serBit + 1 = 0 then s.serPix + 1 else s.serPix }

/-- Render: one bit while bits remain (R216), and then the latch (R217). -/
def pushRender (s : State) : Except Fault State :=
  if s.serPix = s.cfg.nLeds then .ok { s with pushState := .latch }
  else
    match pixRead s s.serPix with
    | .error f => .error f
    | .ok p => .ok (advance (emitBit ((grb p).getLsbD (23 - s.serBit.val)) s))

/-- Latch (R218): latch and reopen the gate. -/
def pushLatch (s : State) : State :=
  { emitLatch s with evtGate := false, pushState := .waitTx2 }

/-- WaitTx2 (R219): send READY once `tx_ready = 1`, and release the host. -/
def pushWaitTx2 (s : State) : State :=
  if s.txReady then
    { sendAccepted (statusMessage s.cfg.typeReady) s with pushState := .idle, pushDone := true }
  else s

/-- The sequencer's step (R211). A step whose guard does not hold is not taken. -/
def pushStep (s : State) : Except Fault State :=
  match s.pushState with
  | .idle => .ok s
  | .waitTx1 => .ok (pushWaitTx1 s)
  | .waitBusyDone => .ok (pushWaitBusyDone s)
  | .render => pushRender s
  | .latch => .ok (pushLatch s)
  | .waitTx2 => .ok (pushWaitTx2 s)

end Sys2Proof.Machine
end

