-- ==== Sys2Proof/Machine/Turns.lean ====
section
/-! DEFINITION. What an agent's turn does (R250), and how the host's next request is fetched and decoded
(R265, R266). Step.lean only calls these. -/

namespace Sys2Proof.Machine

/-- The host's turn: nothing while it is held (R266) or has no request; otherwise its oldest request is issued and
its instruction executed. -/
def hostTurn (s : State) : Host.Outcome State Fault Refusal :=
  if hostHeld s then .next s
  else
    match s.hostq with
    | [] => .next s
    | r :: rs =>
      match decodeRequest s.txReady s.takeResult r with
      | none => .next { s with hostq := rs }
      | some i => exec i { s with hostq := rs }

/-- One agent's turn. A turn whose step is not enabled changes nothing. -/
def takeTurn (t : Turn) (s : State) : Host.Outcome State Fault Refusal :=
  match t with
  | .host => hostTurn s
  | .byteSent => exec .byteSent s
  | .byteReceived => exec .byteReceived s
  | .rxArrive b => exec (.rxArrive b) s
  | .sequencer => finish (pushStep s)
  | .reset => .next (resetBlock s)
  | .clockChange f => .next (changeClock f s)
  | .retune div cal => .next (retune div cal s)

/-- The turn that `sched` says is next, with the list moved on; nobody moves when it is empty (log 2). -/
def nextTurn (s : State) : Host.Outcome State Fault Refusal :=
  match s.sched with
  | [] => .next s
  | t :: ts => takeTurn t { s with sched := ts }

/-- An outstanding Push is over and the gate open, so that the host may issue a request (log 4). -/
def releaseHost (s : State) : State :=
  if hostHeld s then { s with pushState := .idle, pushDone := true, evtGate := false } else s

/-- The message is the host's next request and the next turn is the host's (log 4). -/
def withRequest (r : HostRequest) (s : State) : State :=
  { s with hostq := r :: s.hostq, sched := .host :: s.sched }

end Sys2Proof.Machine
end

