-- ==== Sys2Proof/Machine/Step.lean ====
section
/-! DEFINITION. One step of the machine, and where its next instruction is fetched from. -/

namespace Sys2Proof.Machine

/-- One step: the turn of the agent that `sched` names (R250, R72). A configuration that breaks R9's constraints is
refused (93_implementation_defined.md U2; log 12). -/
def step (s : State) : Host.Outcome State Fault Refusal :=
  if s.cfg.ok then nextTurn s else .refused .badParameters

/-- `s` with the packet of an opcode-table word as the request the very next step issues (log 4, log 9). -/
def State.withFetchWord (s : State) (nbits w : Nat) : State :=
  withRequest (.dispatch (tableMessage s.cfg nbits w)) (releaseHost s)

end Sys2Proof.Machine
end

