-- ==== Sys2Proof/Machine/Waveform.lean ====
section
/-! DEFINITION. The waveform of an LED-line symbol (43_output_driver.md R223 to R229): the nominal high and low
times, what a realised waveform must meet, and the bound on the gated interval. No step reads any of it: the
model is untimed (R230), and these are obligations on a realisation. -/

namespace Sys2Proof.Machine

/-- The nominal levels and durations of a symbol, in nanoseconds (R223, R228; the latch's is its minimum). -/
def nominal (c : Params) : LedSym → List (Level × Nat)
  | .bit true => [(.high, c.t1h), (.low, c.t1l)]
  | .bit false => [(.high, c.t0h), (.low, c.t0l)]
  | .latch => [(.low, c.tLatch)]

/-- `|t - T| <= T_TOL` (R227). -/
def within (tol nom real : Nat) : Bool := decide (real ≤ nom + tol) && decide (nom ≤ real + tol)

/-- A realised waveform of a symbol meets R223, R227 and R228: the levels in order, each time of a bit within
tolerance, the latch low for at least `T_LATCH`. -/
def realises (c : Params) : LedSym → List (Level × Nat) → Bool
  | .bit true, [(.high, h), (.low, l)] => within c.tTol c.t1h h && within c.tTol c.t1l l
  | .bit false, [(.high, h), (.low, l)] => within c.tTol c.t0h h && within c.tTol c.t0l l
  | .latch, [(.low, l)] => decide (c.tLatch ≤ l)
  | _, _ => false

/-- The time a realised waveform takes. -/
def duration (w : List (Level × Nat)) : Nat := (w.map Prod.snd).sum

/-- `T_BITMAX = max(T0H + T0L, T1H + T1L) + 2 * T_TOL` (R229). -/
def bitMax (c : Params) : Nat := max (c.t0h + c.t0l) (c.t1h + c.t1l) + 2 * c.tTol

end Sys2Proof.Machine
end

