-- ==== Sys2Proof/Safety.lean ====
section
/-! DEFINITION. What claims are stated in: the invariant of the block, what "unchanged" means for each part of
the state, and the schedules of the runs the spec describes. -/

namespace Sys2Proof.Machine

/-- `tx_busy = 1` exactly in these states (R31). -/
def txActive : XferState → Bool
  | .init => false
  | .type => true
  | .length => true
  | .data => true
  | .checksum => true
  | .post => true
  | .done => false

/-- `rx_busy = 1` exactly in these states (R31). -/
def rxActive : XferState → Bool
  | .init => false
  | .type => true
  | .length => true
  | .data => true
  | .checksum => true
  | .post => false
  | .done => false

/-- The states of the sequencer in which the gate is closed (R215, R218). -/
def gated : PushState → Bool
  | .idle => false
  | .waitTx1 => false
  | .waitBusyDone => false
  | .render => true
  | .latch => true
  | .waitTx2 => false

/-- The states of the sequencer between the end of the BUSY frame and the READY send (R219: "`tx_ready` is already
1 when this state is entered"). -/
def afterBusy : PushState → Bool
  | .idle => false
  | .waitTx1 => false
  | .waitBusyDone => false
  | .render => true
  | .latch => true
  | .waitTx2 => true

/-- The invariant of the block: what holds in every state a run reaches. -/
structure Inv (s : State) : Prop where
  /-- R9 -/
  cfg_valid : s.cfg.Valid
  /-- R22, R23, R62: the data fields have `MAX_DATA` bytes -/
  txdata_length : s.txbuf.data.length = s.cfg.maxData
  rxdata_length : s.rxbuf.data.length = s.cfg.maxData
  /-- R39: the pixel buffer has `N_LEDS` entries -/
  pix_length : s.pix.length = s.cfg.nLeds
  /-- R22, R23: the lengths are `0..MAX_DATA` -/
  txlen_le : s.txbuf.length.toNat ≤ s.cfg.maxData
  rxlen_le : s.rxbuf.length.toNat ≤ s.cfg.maxData
  /-- R26: the counters are `0..MAX_DATA` -/
  txidx_le : s.txIdx.toNat ≤ s.cfg.maxData
  rxidx_le : s.rxIdx.toNat ≤ s.cfg.maxData
  /-- R117, R145: in Data a counter stays below its length -/
  txidx_lt : s.txbuf.xfer = .data → s.txIdx.toNat < s.txbuf.length.toNat
  rxidx_lt : s.rxbuf.xfer = .data → s.rxIdx.toNat < s.rxbuf.length.toNat
  /-- R29: exactly one of `tx_ready`, `tx_busy` -/
  tx_ready_busy : s.txReady = !s.txBusy
  /-- R29: not both of `rx_ready`, `rx_busy` -/
  rx_ready_busy : ¬ (s.rxReady = true ∧ s.rxBusy = true)
  /-- R31 -/
  tx_busy_iff : s.txBusy = txActive s.txbuf.xfer
  rx_busy_iff : s.rxBusy = rxActive s.rxbuf.xfer
  /-- R25: the RX machine never uses Post -/
  rx_no_post : s.rxbuf.xfer ≠ .post
  /-- R46: a byte is in flight exactly while the TX machine waits for its event -/
  inflight_iff : s.txInflight = s.txBusy
  /-- R38: bits 15:8 of `active_block` are 0 -/
  block_high : s.activeBlock.toNat < 256
  /-- R178, R219: `push_done` is 0 while a push runs -/
  push_done_low : s.pushState ≠ .idle → s.pushDone = false
  /-- R42, R74: the gate is closed exactly during render and latch -/
  gate_iff : s.evtGate = gated s.pushState
  /-- R215, R219: no frame is going out from the render to the READY send -/
  push_ready : afterBusy s.pushState = true → s.txReady = true
  /-- R41 -/
  ser_pix_le : s.serPix ≤ s.cfg.nLeds
  /-- R45 -/
  rxq_le : s.rxq.length ≤ s.cfg.rxqDepth
  /-- R43, R224: between steps no bit is being emitted -/
  line_low : s.ledLine = .low
  /-- R170, R178: no push runs after the fatal condition -/
  push_no_fault : s.pushState ≠ .idle → s.cmdFault = false
  /-- R292: a push that runs with stale bit-clock settings has its output unspecified -/
  push_open : s.pushState ≠ .idle → s.tuned = false → s.ledOpen = true

/-- The TX path's state is the same in both (R261: "TX writes `tx_*`, `txbuf` and `wire_tx`"). -/
structure SameTx (s t : State) : Prop where
  txbuf : t.txbuf = s.txbuf
  txIdx : t.txIdx = s.txIdx
  txReady : t.txReady = s.txReady
  txBusy : t.txBusy = s.txBusy
  txError : t.txError = s.txError
  txInflight : t.txInflight = s.txInflight
  wireTx : t.wireTx = s.wireTx

/-- The RX path's state is the same in both. -/
structure SameRx (s t : State) : Prop where
  rxbuf : t.rxbuf = s.rxbuf
  rxIdx : t.rxIdx = s.rxIdx
  rxReady : t.rxReady = s.rxReady
  rxBusy : t.rxBusy = s.rxBusy
  rxError : t.rxError = s.rxError
  rxq : t.rxq = s.rxq

/-- The dispatcher's state is the same in both (R183, R33). -/
structure SameDispatcher (s t : State) : Prop where
  cmdFault : t.cmdFault = s.cmdFault
  okToSend : t.okToSend = s.okToSend
  activeBlock : t.activeBlock = s.activeBlock
  pix : t.pix = s.pix

/-- The output driver's state is the same in both (R40 to R44, R47). -/
structure SameDriver (s t : State) : Prop where
  pushState : t.pushState = s.pushState
  serPix : t.serPix = s.serPix
  serBit : t.serBit = s.serBit
  evtGate : t.evtGate = s.evtGate
  ledLine : t.ledLine = s.ledLine
  pushDone : t.pushDone = s.pushDone
  ledOut : t.ledOut = s.ledOut
  ledOpen : t.ledOpen = s.ledOpen

/-- What no run of host requests and events changes: the parameters, and the platform's clock and settings. -/
structure SamePlatform (s t : State) : Prop where
  cfg : t.cfg = s.cfg
  fClk : t.fClk = s.fClk
  bitclkDiv : t.bitclkDiv = s.bitclkDiv
  calInterval : t.calInterval = s.calInterval
  tuned : t.tuned = s.tuned

/-! What the next step is, in the terms of R28's table of writers. -/

/-- The next turn is reset's. -/
def resets (s : State) : Prop := s.sched.head? = some .reset

/-- The host issues this request in the next step. -/
def issues (s : State) (r : HostRequest) : Prop :=
  s.sched.head? = some .host ∧ hostHeld s = false ∧ s.hostq.head? = some r

/-- The next step is an accepted send: the host's, or one of the sequencer's two (R112, R214, R219). -/
def acceptsSend (s : State) : Prop :=
  s.txReady = true ∧ ((∃ m : Message, issues s (.send m)) ∨
    (s.sched.head? = some .sequencer ∧ (s.pushState = .waitTx1 ∨ s.pushState = .waitTx2)))

/-- The next step is a dropped send (R113). -/
def dropsSend (s : State) : Prop := s.txReady = false ∧ ∃ m : Message, issues s (.send m)

/-- The next step is the TX Post step (R119). -/
def postStep (s : State) : Prop :=
  s.sched.head? = some .byteSent ∧ s.txInflight = true ∧ s.evtGate = false ∧ s.txbuf.xfer = .post

/-- The next step delivers this received byte (R140). -/
def delivers (s : State) (b : Byte) : Prop :=
  s.sched.head? = some .byteReceived ∧ s.evtGate = false ∧ s.rxq.head? = some b

/-- The next step is a frame start (R142). -/
def frameStart (s : State) : Prop := s.rxBusy = false ∧ delivers s s.cfg.start

/-- The next step is the RX Checksum step, on this byte (R146). -/
def checksumStep (s : State) (b : Byte) : Prop := s.rxBusy = true ∧ s.rxbuf.xfer = .checksum ∧ delivers s b

/-- The checksum of the packet in the RX buffer (R110, R146). -/
def rxSum (s : State) : Byte := cks s.rxbuf.type s.rxbuf.length (s.rxbuf.data.take s.rxbuf.length.toNat)

/-- The turns in which the bytes of a list reach the block one by one, each delivered before the next arrives
(95_test_vectors.md: "Receive frame F"). -/
def receiveTurns (bytes : List Byte) : List Turn :=
  bytes.flatMap fun b => [.rxArrive b, .byteReceived]

/-- The turns of a push whose BUSY and READY frames go out without delay: send(BUSY), its four events, the start
of the render, one turn for each bit, the end of the render, the latch, send(READY), its four events. -/
def pushTurns (nLeds : Nat) : List Turn :=
  .sequencer :: (List.replicate 4 .byteSent ++ .sequencer :: (List.replicate (24 * nLeds) .sequencer ++
    .sequencer :: .sequencer :: .sequencer :: List.replicate 4 .byteSent))

end Sys2Proof.Machine
end

