-- ==== Sys2Proof/Certificates/Slice0/Obligations.lean ====
section
/-! DEFINITION. The statements for the provers. Each docstring names the rules of spec/ it formalises. The rules of
this spec carry its own marks: "[decision: D<n>]" is a rule the spec decided, and is stated as the spec's rule;
"[derived]" is an inference of the spec, and a statement that rests on one has basis derived. -/

open Sys2Proof Sys2Proof.Machine

/-! ### Reset -/

/-- R51: the value of every piece of state after reset, under every configuration (the spec's decisions D5 to D14,
D25, D26, D29, D31 where the source gives none). -/
def Obligations.ResetLeavesSpecValues : Prop :=
  ∀ c : Params,
    let s := State.resetOf c
    s.txbuf.type = 0x00 ∧ s.txbuf.length = 0x00 ∧ s.txbuf.checksum = 0x00 ∧ s.txbuf.xfer = .init ∧
    s.txbuf.data.length = c.maxData ∧ (∀ i, i < c.maxData → s.txbuf.data[i]? = some 0x00) ∧ s.txIdx = 0 ∧
    s.rxbuf.type = 0x00 ∧ s.rxbuf.length = 0x00 ∧ s.rxbuf.checksum = 0x00 ∧ s.rxbuf.xfer = .init ∧
    s.rxbuf.data.length = c.maxData ∧ (∀ i, i < c.maxData → s.rxbuf.data[i]? = some 0x00) ∧ s.rxIdx = 0 ∧
    s.txReady = true ∧ s.txBusy = false ∧ s.rxReady = false ∧ s.rxBusy = false ∧
    s.txError = false ∧ s.rxError = false ∧ s.cmdFault = false ∧ s.errKind = .none ∧ s.okToSend = true ∧
    s.activeBlock = 0x0000 ∧
    s.pix.length = c.nLeds ∧ (∀ i, i < c.nLeds → s.pix[i]? = some ⟨0, 0, 0⟩) ∧
    s.pushState = .idle ∧ s.serPix = 0 ∧ s.serBit = 0 ∧ s.evtGate = false ∧ s.ledLine = .low ∧
    s.pushDone = false ∧ s.rxq = [] ∧ s.txInflight = false ∧ s.wireTx = [] ∧ s.ledOut = []

/-- The invariant holds after reset, under every configuration R9 admits, the reference configuration among them. -/
def Obligations.ResetMeetsInvariant : Prop :=
  (∀ c : Params, c.Valid → Inv (State.resetOf c)) ∧ Inv State.reset

/-- R280: reset, in any state, puts the whole block into its reset state at once. What lies outside the block (log 15:
the model's choice) stays: configuration, clock, the host's requests and results, the turns, the draw counter. -/
def Obligations.ResetTurnRestoresResetState : Prop :=
  ∀ (s : State) (ts : List Turn), s.cfg.ok = true → s.sched = .reset :: ts →
    step s = .next { State.resetOf s.cfg with
      fClk := s.fClk, bitclkDiv := s.bitclkDiv, calInterval := s.calInterval, tuned := s.tuned, hostq := s.hostq,
      sched := ts, draws := s.draws, takeResult := s.takeResult, statusResult := s.statusResult }

/-! ### Step, decode and encode -/

/-- A step runs the decoded instruction: on the host's turn, when the host is not held, the oldest request is taken
off the queue and `exec` runs the instruction it decodes to; on an event's turn `exec` runs the event; on the sequencer's
turn its one step is taken. The five requests of the host decode to their instructions: `send` to the row its `tx_ready`
selects (log 8), and `dispatchTaken` to the dispatch of the packet last taken, all of it (R76, R170); with nothing taken it
is dropped. (Rests on the model's schedule and request queue, log 2 and log 3.) -/
def Obligations.StepRunsDecodedInstruction : Prop :=
  (∀ (s : State) (ts : List Turn) (r : HostRequest) (q : List HostRequest) (i : Instr),
    s.cfg.ok = true → s.sched = .host :: ts → hostHeld s = false → s.hostq = r :: q →
    decodeRequest s.txReady s.takeResult r = some i →
    step s = exec i { s with sched := ts, hostq := q }) ∧
  (∀ (s : State) (ts : List Turn), s.cfg.ok = true → s.sched = .byteSent :: ts →
    step s = exec .byteSent { s with sched := ts }) ∧
  (∀ (s : State) (ts : List Turn), s.cfg.ok = true → s.sched = .byteReceived :: ts →
    step s = exec .byteReceived { s with sched := ts }) ∧
  (∀ (s : State) (ts : List Turn) (b : Byte), s.cfg.ok = true → s.sched = .rxArrive b :: ts →
    step s = exec (.rxArrive b) { s with sched := ts }) ∧
  (∀ (s : State) (ts : List Turn), s.cfg.ok = true → s.sched = .sequencer :: ts →
    step s = finish (pushStep { s with sched := ts })) ∧
  (∀ (ready : Bool) (p : Option Packet) (m : Message),
    decodeRequest true p (.send m) = some (.send m) ∧ decodeRequest false p (.send m) = some (.sendDropped m) ∧
    decodeRequest ready p .takeReceived = some .takeReceived ∧
    decodeRequest ready p (.dispatch m) = some (.dispatch m) ∧
    decodeRequest ready p .readStatus = some .readStatus ∧
    decodeRequest ready none .dispatchTaken = none) ∧
  (∀ (s : State) (ts : List Turn) (q : List HostRequest) (p : Packet),
    s.cfg.ok = true → s.sched = .host :: ts → hostHeld s = false → s.hostq = .dispatchTaken :: q →
    s.takeResult = some p →
    step s = exec (.dispatch ⟨p.type, p.length, p.data⟩) { s with sched := ts, hostq := q }) ∧
  (∀ (s : State) (ts : List Turn) (q : List HostRequest),
    s.cfg.ok = true → s.sched = .host :: ts → hostHeld s = false → s.hostq = .dispatchTaken :: q →
    s.takeResult = none → step s = .next { s with sched := ts, hostq := q })

/-- R266 with R50: while a Push is running (`push_state` not Idle, `push_done` 0) the host issues nothing. -/
def Obligations.HeldHostIssuesNothing : Prop :=
  ∀ (s : State) (ts : List Turn), s.cfg.ok = true → s.sched = .host :: ts →
    s.pushState ≠ .idle → s.pushDone = false → step s = .next { s with sched := ts }

/-- R170: a dispatched packet runs the row it decodes to, and with `cmd_fault = 1` no state changes, for the request
`dispatch` and for each frame row (D-17 of 95_test_vectors.md; log 10 for the rows). Every packet's dispatch completes. -/
def Obligations.DispatchRunsDecodedRow : Prop :=
  (∀ (m : Message) (s : State), s.cmdFault = false →
    exec (.dispatch m) s = exec (decodePacket s.cfg m).toInstr s) ∧
  (∀ (m : Message) (s : State), s.cmdFault = true → exec (.dispatch m) s = .next s) ∧
  (∀ (k : Command) (s : State), s.cmdFault = true → exec k.toInstr s = .next s) ∧
  (∀ (m : Message) (s : State), s.pix.length = s.cfg.nLeds → s.cmdFault = false →
    ∃ t : State, exec (.dispatch m) s = .next t ∧ exec (decodePacket s.cfg m).toInstr s = .next t)

/-- Words written out from the encodings of R80, R84, R85, R87 to R91 decode to the commands they stand for, under the
reference configuration. -/
def Obligations.WrittenFramesDecode : Prop :=
  decode Params.reference [0x7E, 0x02, 0x02, 0x00, 0x0F, 0x0F] = .ok (.selblk (some 0x0F) [], []) ∧
  decode Params.reference [0x7E, 0x02, 0x04, 0x01, 0x13, 0x05, 0x25, 0x34] =
    .ok (.copy (some 0x13) [0x05, 0x25], []) ∧
  decode Params.reference [0x7E, 0x03, 0x04, 0x00, 0xFF, 0x00, 0x00, 0xF8] =
    .ok (.leddata [⟨0x00, 0xFF, 0x00, 0x00⟩] [], []) ∧
  decode Params.reference [0x7E, 0x02, 0x01, 0x03, 0x00] = .ok (.push [], []) ∧
  decode Params.reference [0x7E, 0x04, 0x00, 0x04] = .ok (.busy [], []) ∧
  decode Params.reference [0x01, 0x7E] = .error .noStart

/-- R97, R87 to R91, R99: decoding the packet of a well-formed command gives the command back, every operand at every
value, under every admitted configuration. -/
def Obligations.DecodeOfEncodedCommand : Prop :=
  ∀ (c : Params) (k : Command), c.Valid → k.wf c = true → decodePacket c (encodeCommand c k) = k

/-- R97 with R84, R85, R93, R94: every packet decodes to a well-formed command, and that command's packet has the same
TYPE, the clamped length, and the same data bytes: the decoder drops nothing and merges no two packets. -/
def Obligations.EncodeOfDecodedPacket : Prop :=
  ∀ (c : Params) (m : Message),
    (decodePacket c m).wf c = true ∧
    encodeCommand c (decodePacket c m) = ⟨m.type, clampLen c m.length, m.payload c⟩

/-- R80, R81, R98: a frame's bytes, whatever follows them, decode to the packet they carry, with a checksum that
verifies, and leave what follows. -/
def Obligations.FrameOfPacketDecodes : Prop :=
  ∀ (c : Params) (m : Message) (rest : List Byte),
    ∃ f : Frame, decodeFrame c (encodeFrame c m ++ rest) = .ok (f, rest) ∧
      f.type = m.type ∧ f.length = clampLen c m.length ∧ f.data = m.payload c ∧ f.verified = true

/-! ### The checksum -/

/-- R110: the checksum is the exclusive-or of type, length and every data byte, with the rule's corner cases (no data;
any reordering; two equal bytes; two flips of the same bits) and its example. -/
def Obligations.ChecksumIsRunningXor : Prop :=
  (∀ t l : Byte, cks t l [] = t ^^^ l) ∧
  (∀ (t l x : Byte) (d : List Byte), cks t l (d ++ [x]) = cks t l d ^^^ x) ∧
  (∀ (t l : Byte) (d e : List Byte), d.Perm e → cks t l d = cks t l e) ∧
  (∀ t : Byte, cks t 0 [] = t) ∧
  (∀ (t l x : Byte) (d : List Byte), cks t l (x :: x :: d) = cks t l d) ∧
  (∀ (t l a b x : Byte) (d : List Byte), cks t l ((a ^^^ x) :: (b ^^^ x) :: d) = cks t l (a :: b :: d)) ∧
  cks 0x01 5 [0x49, 0x4E, 0x49, 0x54, 0x0A] = 0x14

/-- R111 (derived by the spec from R110): the exclusive-or of every byte from TYPE through CHECKSUM is 0, and changing
any one of TYPE, LENGTH, a data byte makes the checksum differ. -/
def Obligations.ChecksumDetectsOneChange : Prop :=
  (∀ (t l : Byte) (d : List Byte), (t :: l :: (d ++ [cks t l d])).foldl (· ^^^ ·) 0 = 0) ∧
  (∀ (t t' l : Byte) (d : List Byte), cks t' l d = cks t l d → t' = t) ∧
  (∀ (t l l' : Byte) (d : List Byte), cks t l' d = cks t l d → l' = l) ∧
  (∀ (t l x : Byte) (d : List Byte) (i : Nat), i < d.length → cks t l (d.set i x) = cks t l d → d[i]? = some x)

/-! ### Transmit -/

/-- R112: an accepted send. `L = min(p.length, MAX_DATA)`; the bytes of the TX buffer at and above `L` are unspecified
(R24, log 5), so only those below it are stated. The spec's packets carry all their data bytes, and so does `m` (`m.wf`;
for a byte the host did not supply see log 6). Both send rows are the one request, so `send.dropped` made while
`tx_ready = 1` is accepted too: that clause is the model's choice (log 8). -/
def Obligations.SendAcceptedStartsFrame : Prop :=
  ∀ (m : Message) (s : State), s.txReady = true → m.wf s.cfg = true → s.txbuf.data.length = s.cfg.maxData →
    ∃ d : List Byte,
      d.length = s.cfg.maxData ∧
      d.take (min m.length.toNat s.cfg.maxData) = m.data.take (min m.length.toNat s.cfg.maxData) ∧
      (∀ i : Instr, i = .send m ∨ i = .sendDropped m →
        exec i s = .next { s with
          txbuf := ⟨m.type, BitVec.ofNat 8 (min m.length.toNat s.cfg.maxData), d,
            cks m.type (BitVec.ofNat 8 (min m.length.toNat s.cfg.maxData))
              (m.data.take (min m.length.toNat s.cfg.maxData)), .type⟩
          txError := false
          txReady := false
          txBusy := true
          txInflight := true
          wireTx := s.wireTx ++ [s.cfg.start]
          draws := s.draws + 1 })

/-- R113 with R253: a send while `tx_ready = 0` is dropped; only `tx_error` and `err_kind` change. -/
def Obligations.SendWhileBusyIsDropped : Prop :=
  ∀ (m : Message) (s : State), s.txReady = false →
    exec (.send m) s = .next { s with txError := true, errKind := .sendWhileBusy } ∧
    exec (.sendDropped m) s = .next { s with txError := true, errKind := .sendWhileBusy }

/-- R115, R116: the TX transitions in Type and Length. -/
def Obligations.ByteSentSendsTypeAndLength : Prop :=
  ∀ s : State, s.txInflight = true → s.evtGate = false →
    (s.txbuf.xfer = .type →
      exec .byteSent s = .next { s with
        wireTx := s.wireTx ++ [s.txbuf.type], txInflight := true, txbuf := { s.txbuf with xfer := .length } }) ∧
    (s.txbuf.xfer = .length → s.txbuf.length = 0 →
      exec .byteSent s = .next { s with
        wireTx := s.wireTx ++ [s.txbuf.length], txInflight := true, txIdx := 0,
        txbuf := { s.txbuf with xfer := .checksum } }) ∧
    (s.txbuf.xfer = .length → s.txbuf.length ≠ 0 →
      exec .byteSent s = .next { s with
        wireTx := s.wireTx ++ [s.txbuf.length], txInflight := true, txIdx := 0,
        txbuf := { s.txbuf with xfer := .data } })

/-- R117: the TX transition in Data, with the counter inside the data space. -/
def Obligations.ByteSentSendsDataByte : Prop :=
  ∀ (s : State) (b : Byte), s.txInflight = true → s.evtGate = false → s.txbuf.xfer = .data →
    s.txbuf.data[s.txIdx.toNat]? = some b →
    (s.txIdx + 1 = s.txbuf.length →
      exec .byteSent s = .next { s with
        wireTx := s.wireTx ++ [b], txInflight := true, txIdx := s.txIdx + 1,
        txbuf := { s.txbuf with xfer := .checksum } }) ∧
    (s.txIdx + 1 ≠ s.txbuf.length →
      exec .byteSent s = .next { s with
        wireTx := s.wireTx ++ [b], txInflight := true, txIdx := s.txIdx + 1 })

/-- R118, R119: the TX transitions in Checksum and Post. -/
def Obligations.ByteSentEndsFrame : Prop :=
  ∀ s : State, s.txInflight = true → s.evtGate = false →
    (s.txbuf.xfer = .checksum →
      exec .byteSent s = .next { s with
        wireTx := s.wireTx ++ [s.txbuf.checksum], txInflight := true, txbuf := { s.txbuf with xfer := .post } }) ∧
    (s.txbuf.xfer = .post →
      exec .byteSent s = .next { s with
        txInflight := false, txBusy := false, txReady := true, txbuf := { s.txbuf with xfer := .done } })

/-- While the gate is closed no byte event is delivered, and what is held stays held (R260, R114, R140); a `byte_sent` with
nothing in flight has no effect, and in Init and Done the TX machine does nothing (R120). That an event which is not
enabled answers the same state, a `byte_received` with nothing queued among them, is the model's choice (log 2). -/
def Obligations.EventsHeldOrAbsentDoNothing : Prop :=
  (∀ s : State, s.evtGate = true → exec .byteSent s = .next s ∧ exec .byteReceived s = .next s) ∧
  (∀ s : State, s.txInflight = false → exec .byteSent s = .next s) ∧
  (∀ s : State, s.txInflight = true → s.evtGate = false → (s.txbuf.xfer = .init ∨ s.txbuf.xfer = .done) →
    exec .byteSent s = .next { s with txInflight := false }) ∧
  (∀ s : State, s.rxq = [] → exec .byteReceived s = .next s)

/-- R121 (derived by the spec from R112 to R119): a send accepted on the host's turn, followed by `L + 4` turns of the
TX event path, puts exactly the frame on the wire, and changes no other part of the block. The run is one schedule of the
model's (log 2) and takes its request from the model's queue (log 3). -/
def Obligations.SendPutsWholeFrameOnWire : Prop :=
  ∀ (s : State) (m : Message) (q : List HostRequest) (ts : List Turn),
    Inv s → s.pushState = .idle → s.txReady = true → m.wf s.cfg = true →
    s.hostq = .send m :: q →
    s.sched = .host :: (List.replicate (min m.length.toNat s.cfg.maxData + 4) .byteSent ++ ts) →
    ∃ t : State,
      core.run (min m.length.toNat s.cfg.maxData + 5) s = .next t ∧
      t.wireTx = s.wireTx ++ (s.cfg.start :: m.type :: BitVec.ofNat 8 (min m.length.toNat s.cfg.maxData) ::
        (m.data.take (min m.length.toNat s.cfg.maxData) ++
          [cks m.type (BitVec.ofNat 8 (min m.length.toNat s.cfg.maxData))
            (m.data.take (min m.length.toNat s.cfg.maxData))])) ∧
      t.txReady = true ∧ t.txBusy = false ∧ t.txError = false ∧ t.txInflight = false ∧ t.txbuf.xfer = .done ∧
      t.errKind = s.errKind ∧ SameRx s t ∧ SameDispatcher s t ∧ SameDriver s t ∧ SamePlatform s t ∧
      t.hostq = q ∧ t.sched = ts

/-! ### Receive -/

/-- R149: a byte arrives; it is queued if there is room and lost otherwise, whatever the gate. -/
def Obligations.ArrivingByteIsQueuedOrLost : Prop :=
  ∀ (b : Byte) (s : State),
    (s.rxq.length < s.cfg.rxqDepth → exec (.rxArrive b) s = .next { s with rxq := s.rxq ++ [b] }) ∧
    (s.cfg.rxqDepth ≤ s.rxq.length → exec (.rxArrive b) s = .next s)

/-- R141, R142: a received byte while idle. START starts a frame, whatever `rx_ready`; any other byte is discarded. The
buffer's bytes below its length stay; those at and above it are drawn anew, as the model has R24 (log 5). -/
def Obligations.IdleByteStartsFrameOrIsDiscarded : Prop :=
  ∀ (s : State) (b : Byte) (rest : List Byte), s.evtGate = false → s.rxq = b :: rest → s.rxBusy = false →
    (b ≠ s.cfg.start → exec .byteReceived s = .next { s with rxq := rest }) ∧
    (b = s.cfg.start →
      ∃ d : List Byte, d.length = s.rxbuf.data.length ∧
        d.take s.rxbuf.length.toNat = s.rxbuf.data.take s.rxbuf.length.toNat ∧
        exec .byteReceived s = .next { s with
          rxq := rest, rxBusy := true, rxReady := false, rxError := false,
          rxbuf := { s.rxbuf with data := d, xfer := .type }, draws := s.draws + 1 })

/-- R143, R144: the TYPE byte is stored whatever it is; the length stored is `min(b, MAX_DATA)`, and the buffer's bytes at
and above it are drawn anew, as the model has R24 (log 5). -/
def Obligations.HeaderBytesAreStored : Prop :=
  ∀ (s : State) (b : Byte) (rest : List Byte), s.evtGate = false → s.rxq = b :: rest → s.rxBusy = true →
    (s.rxbuf.xfer = .type →
      exec .byteReceived s = .next { s with rxq := rest, rxbuf := { s.rxbuf with type := b, xfer := .length } }) ∧
    (s.rxbuf.xfer = .length → s.cfg.maxData ≤ 255 → s.rxbuf.data.length = s.cfg.maxData →
      ∃ d : List Byte, d.length = s.cfg.maxData ∧
        d.take (min b.toNat s.cfg.maxData) = s.rxbuf.data.take (min b.toNat s.cfg.maxData) ∧
        exec .byteReceived s = .next { s with
          rxq := rest, rxIdx := 0, draws := s.draws + 1,
          rxbuf := { s.rxbuf with
            length := BitVec.ofNat 8 (min b.toNat s.cfg.maxData), data := d,
            xfer := if min b.toNat s.cfg.maxData = 0 then .checksum else .data } })

/-- R145, R147: a data byte, START among them, is stored at the counter's index, and no other byte changes. -/
def Obligations.DataByteIsStored : Prop :=
  ∀ (s : State) (b : Byte) (rest : List Byte), s.evtGate = false → s.rxq = b :: rest → s.rxBusy = true →
    s.rxbuf.xfer = .data → s.rxIdx.toNat < s.rxbuf.data.length →
    ∃ d : List Byte, d.length = s.rxbuf.data.length ∧ d[s.rxIdx.toNat]? = some b ∧
      (∀ j, j ≠ s.rxIdx.toNat → d[j]? = s.rxbuf.data[j]?) ∧
      exec .byteReceived s = .next { s with
        rxq := rest, rxIdx := s.rxIdx + 1,
        rxbuf := { s.rxbuf with
          data := d, xfer := if s.rxIdx + 1 = s.rxbuf.length then .checksum else .data } }

/-- R146 with R252: the CHECKSUM byte completes the frame either way; a mismatch sets `rx_error` and `err_kind`. -/
def Obligations.ChecksumByteCompletesFrame : Prop :=
  ∀ (s : State) (b : Byte) (rest : List Byte), s.evtGate = false → s.rxq = b :: rest → s.rxBusy = true →
    s.rxbuf.xfer = .checksum →
    (b = cks s.rxbuf.type s.rxbuf.length (s.rxbuf.data.take s.rxbuf.length.toNat) →
      exec .byteReceived s = .next { s with
        rxq := rest, rxBusy := false, rxReady := true, rxbuf := { s.rxbuf with checksum := b, xfer := .done } }) ∧
    (b ≠ cks s.rxbuf.type s.rxbuf.length (s.rxbuf.data.take s.rxbuf.length.toNat) →
      exec .byteReceived s = .next { s with
        rxq := rest, rxBusy := false, rxReady := true, rxbuf := { s.rxbuf with checksum := b, xfer := .done },
        rxError := true, errKind := .checksumMismatch })

/-- R148: `take_received` returns a copy of the RX buffer, complete or not, clears `rx_ready`, and changes nothing else.
The result stands in the model's own field (log 7). -/
def Obligations.TakeReceivedReturnsCopy : Prop :=
  ∀ s : State, exec .takeReceived s = .next { s with takeResult := some s.rxbuf, rxReady := false }

/-- R150 and R96 (derived by the spec from R140 to R146): from an idle receiver with an empty queue and the gate open, the
bytes `START, T, N, d[0..min(N, MAX_DATA)), C`, each delivered as it arrives, leave the packet stored with its clamped
length, complete, with `rx_error` exactly when `C` is not its checksum, and change no other part of the block. The run is
one schedule of the model's (log 2). -/
def Obligations.ReceivedFrameIsStored : Prop :=
  ∀ (s : State) (ty n k : Byte) (d : List Byte) (ts : List Turn),
    Inv s → s.rxBusy = false → s.evtGate = false → s.rxq = [] →
    d.length = min n.toNat s.cfg.maxData →
    s.sched = receiveTurns (s.cfg.start :: ty :: n :: (d ++ [k])) ++ ts →
    ∃ t : State,
      core.run (2 * (d.length + 4)) s = .next t ∧
      t.rxbuf.type = ty ∧ t.rxbuf.length = BitVec.ofNat 8 d.length ∧ t.rxbuf.data.take d.length = d ∧
      t.rxbuf.checksum = k ∧ t.rxbuf.xfer = .done ∧
      t.rxBusy = false ∧ t.rxReady = true ∧ t.rxq = [] ∧
      (t.rxError = true ↔ k ≠ cks ty (BitVec.ofNat 8 d.length) d) ∧
      t.errKind = (if k = cks ty (BitVec.ofNat 8 d.length) d then s.errKind else .checksumMismatch) ∧
      SameTx s t ∧ SameDispatcher s t ∧ SameDriver s t ∧ SamePlatform s t ∧ t.hostq = s.hostq ∧ t.sched = ts

/-- R261: a `byte_sent` and a `byte_received` reach the same state in either order. -/
def Obligations.ByteEventsCommute : Prop :=
  ∀ s : State, Inv s → ∃ t u v : State,
    exec .byteSent s = .next t ∧ exec .byteReceived t = .next v ∧
    exec .byteReceived s = .next u ∧ exec .byteSent u = .next v

/-! ### The host port's status -/

/-- R265, R48 and R69: `read_status` returns both views, bit by bit as R48 gives them, and no state of the block
changes; the result stands in the model's own field (log 7). -/
def Obligations.ReadStatusReturnsViews : Prop :=
  ∀ s : State, ∃ st ek : Byte,
    exec .readStatus s = .next { s with statusResult := some (st, ek) } ∧
    st.getLsbD 0 = s.txReady ∧ st.getLsbD 1 = s.txBusy ∧ st.getLsbD 2 = s.txError ∧ st.getLsbD 3 = s.rxReady ∧
    st.getLsbD 4 = s.rxBusy ∧ st.getLsbD 5 = s.rxError ∧ st.getLsbD 6 = s.cmdFault ∧ st.getLsbD 7 = s.okToSend ∧
    (s.errKind = .none → ek = 0) ∧ (s.errKind = .checksumMismatch → ek = 1) ∧
    (s.errKind = .sendWhileBusy → ek = 2) ∧ (s.errKind = .indexOutOfRange → ek = 3)

/-! ### The dispatcher -/

/-- R173, R174, R179: EMPTY, TEST, an unassigned TYPE, LED_CTRL without data and a reserved sub-command have no effect,
in every state. -/
def Obligations.IgnoredRowsChangeNothing : Prop :=
  ∀ (s : State) (p : List Byte) (b : Byte),
    exec (.empty p) s = .next s ∧ exec (.test p) s = .next s ∧ exec (.typeUnassigned b p) s = .next s ∧
    exec .ctrlNone s = .next s ∧ exec (.ctrlReserved b p) s = .next s

/-- R171, R172: BUSY clears `ok_to_send` and READY sets it; nothing else changes. -/
def Obligations.HandshakePacketsWriteOkToSend : Prop :=
  ∀ (s : State) (p : List Byte), s.cmdFault = false →
    exec (.busy p) s = .next { s with okToSend := false } ∧ exec (.ready p) s = .next { s with okToSend := true }

/-- R175: SelectBlock writes `active_block <- zext_16(data[1])`, ignoring `data[2..L)`; without an operand there is no
effect. -/
def Obligations.SelectBlockWritesMask : Prop :=
  ∀ (s : State) (e : List Byte), s.cmdFault = false →
    (∀ b : Byte, ∃ a : Half, exec (.selblk (some b) e) s = .next { s with activeBlock := a } ∧ a.toNat = b.toNat) ∧
    exec (.selblk none e) s = .next s

/-- R86: a resolved index is the AND of the mask's low byte and the index byte, bit by bit, and is at most 255. -/
def Obligations.ResolveIsAndWithMask : Prop :=
  ∀ (a : Half) (x : Byte),
    (∀ i, i < 8 → (resolve a x).getLsbD i = (a.getLsbD i && x.getLsbD i)) ∧
    (∀ i, 8 ≤ i → (resolve a x).getLsbD i = false) ∧
    (resolve a x).toNat ≤ 255 ∧ (resolve a x).toNat ≤ a.toNat

/-- R176: Copy. With every index in range each destination gets the source's pixel as it was before the packet, every
other pixel and everything else is unchanged; with no source nothing happens; with the source out of range nothing is
written, and with a destination out of range those before it keep their copies and those after it are not written, the
fatal condition recorded in both cases (R181, R254). -/
def Obligations.CopyWritesDestinations : Prop :=
  (∀ (s : State) (x : Byte) (ds : List Byte), s.cmdFault = false → s.pix.length = s.cfg.nLeds →
    index s x < s.cfg.nLeds → (∀ d ∈ ds, index s d < s.cfg.nLeds) →
    ∃ p : List Pixel,
      exec (.copy (some x) ds) s = .next { s with pix := p } ∧ p.length = s.pix.length ∧
      ∀ j, p[j]? = if ∃ d ∈ ds, index s d = j then s.pix[index s x]? else s.pix[j]?) ∧
  (∀ (s : State) (ds : List Byte), s.cmdFault = false → exec (.copy none ds) s = .next s) ∧
  (∀ (s : State) (x : Byte) (ds : List Byte), s.cmdFault = false → s.cfg.nLeds ≤ index s x →
    exec (.copy (some x) ds) s = .next { s with cmdFault := true, errKind := .indexOutOfRange }) ∧
  (∀ (s : State) (x d : Byte) (pre post : List Byte), s.cmdFault = false → s.pix.length = s.cfg.nLeds →
    index s x < s.cfg.nLeds → (∀ e ∈ pre, index s e < s.cfg.nLeds) → s.cfg.nLeds ≤ index s d →
    ∃ p : List Pixel,
      exec (.copy (some x) (pre ++ d :: post)) s =
        .next { s with pix := p, cmdFault := true, errKind := .indexOutOfRange } ∧
      p.length = s.pix.length ∧
      ∀ j, p[j]? = if ∃ e ∈ pre, index s e = j then s.pix[index s x]? else s.pix[j]?)

/-- R177: Clear sets every entry to (0, 0, 0), whatever `active_block` holds, and changes nothing else. -/
def Obligations.ClearBlacksEveryPixel : Prop :=
  ∀ (s : State) (e : List Byte), s.cmdFault = false → ∃ p : List Pixel,
    exec (.clear e) s = .next { s with pix := p } ∧ p.length = s.pix.length ∧
    ∀ i, i < s.pix.length → p[i]? = some ⟨0, 0, 0⟩

/-- R178: Push clears `push_done` and puts the sequencer in WaitTx1; nothing else of the block changes, and the host is then
held. The model's `ledOpen` records whether the bit-clock settings are stale (R292, log 13). -/
def Obligations.PushStartsSequencer : Prop :=
  ∀ (s : State) (e : List Byte), s.cmdFault = false →
    exec (.push e) s = .next { s with pushDone := false, pushState := .waitTx1, ledOpen := !s.tuned } ∧
    hostHeld { s with pushDone := false, pushState := .waitTx1, ledOpen := !s.tuned } = true

/-- R180: LED_DATA, whatever its trailing bytes. With every index in range each addressed pixel has the colour of the
last group that resolves to it, every other pixel and everything else is unchanged; with a group out of range the groups
before it keep their writes, it and those after it write nothing, and the fatal condition is recorded (R181, R254). -/
def Obligations.LedDataWritesGroups : Prop :=
  (∀ (s : State) (gs : List Group) (tr : List Byte), s.cmdFault = false → s.pix.length = s.cfg.nLeds →
    (∀ g ∈ gs, index s g.index < s.cfg.nLeds) →
    ∃ p : List Pixel,
      exec (.leddata gs tr) s = .next { s with pix := p } ∧ p.length = s.pix.length ∧
      ∀ j, p[j]? =
        match (gs.filter fun g => decide (index s g.index = j)).getLast? with
        | some g => some ⟨g.r, g.g, g.b⟩
        | none => s.pix[j]?) ∧
  (∀ (s : State) (pre post : List Group) (g : Group) (tr : List Byte), s.cmdFault = false →
    s.pix.length = s.cfg.nLeds → (∀ h ∈ pre, index s h.index < s.cfg.nLeds) → s.cfg.nLeds ≤ index s g.index →
    ∃ p : List Pixel,
      exec (.leddata (pre ++ g :: post) tr) s =
        .next { s with pix := p, cmdFault := true, errKind := .indexOutOfRange } ∧
      p.length = s.pix.length ∧
      ∀ j, p[j]? =
        match (pre.filter fun h => decide (index s h.index = j)).getLast? with
        | some h => some ⟨h.r, h.g, h.b⟩
        | none => s.pix[j]?)

/-- R182 (derived by the spec from R86 and R181): with `N_LEDS >= 256`, or with the mask's low byte below `N_LEDS`, no
packet raises IndexOutOfRange. -/
def Obligations.SmallMaskNeverFaults : Prop :=
  ∀ (s : State) (m : Message), Inv s → s.cmdFault = false →
    (256 ≤ s.cfg.nLeds ∨ (s.activeBlock &&& 0x00FF).toNat < s.cfg.nLeds) →
    (∀ x : Byte, index s x < s.cfg.nLeds) ∧
    ∃ t : State, exec (.dispatch m) s = .next t ∧ t.cmdFault = false ∧ t.errKind = s.errKind

/-! ### The push sequencer -/

/-- R214, R219: the two sends of the sequencer, each the accepted case with a status packet of length 0 (R220). The bytes
of the TX buffer are all at or above that length and so drawn anew, as the model has R24 (log 5). -/
def Obligations.SequencerSendsBusyAndReady : Prop :=
  ∀ s : State, s.txReady = true →
    (s.pushState = .waitTx1 →
      ∃ d : List Byte, d.length = s.txbuf.data.length ∧
        pushStep s = .ok { s with
          pushState := .waitBusyDone,
          txbuf := ⟨s.cfg.typeBusy, 0, d, s.cfg.typeBusy, .type⟩, txError := false, txReady := false, txBusy := true,
          txInflight := true, wireTx := s.wireTx ++ [s.cfg.start], draws := s.draws + 1 }) ∧
    (s.pushState = .waitTx2 →
      ∃ d : List Byte, d.length = s.txbuf.data.length ∧
        pushStep s = .ok { s with
          pushState := .idle, pushDone := true,
          txbuf := ⟨s.cfg.typeReady, 0, d, s.cfg.typeReady, .type⟩, txError := false, txReady := false, txBusy := true,
          txInflight := true, wireTx := s.wireTx ++ [s.cfg.start], draws := s.draws + 1 })

/-- R215, R217, R218: the start of the render closes the gate, its end leads to the latch, and the latch reopens the gate
(for a push whose output R292 leaves open see MistunedOutputIsOpen). -/
def Obligations.SequencerGatesRenderAndLatch : Prop :=
  ∀ s : State,
    (s.pushState = .waitBusyDone → s.txReady = true →
      pushStep s = .ok { s with evtGate := true, serPix := 0, serBit := 0, pushState := .render }) ∧
    (s.pushState = .render → s.serPix = s.cfg.nLeds → pushStep s = .ok { s with pushState := .latch }) ∧
    (s.pushState = .latch → s.ledOpen = false →
      pushStep s = .ok { s with
        ledOut := s.ledOut ++ [.latch], ledLine := .low, evtGate := false, pushState := .waitTx2 })

/-- R216: the render emits bit `23 - ser_bit` of the pixel's wire word, then moves to the next bit or pixel. -/
def Obligations.RenderEmitsNextBit : Prop :=
  ∀ (s : State) (p : Pixel), s.pushState = .render → s.serPix < s.cfg.nLeds → s.pix[s.serPix]? = some p →
    s.ledOpen = false →
    (s.serBit.val < 23 → ∃ n : Fin 24, n.val = s.serBit.val + 1 ∧
      pushStep s = .ok { s with
        ledOut := s.ledOut ++ [.bit ((grb p).getLsbD (23 - s.serBit.val))], ledLine := .low, serBit := n }) ∧
    (s.serBit.val = 23 →
      pushStep s = .ok { s with
        ledOut := s.ledOut ++ [.bit ((grb p).getLsbD 0)], ledLine := .low, serBit := 0, serPix := s.serPix + 1 })

/-- R292 and R227 as the model has them (log 13). The platform changes `F_CLK`, which makes the settings stale until they
are recomputed; a Push made with stale settings has its whole output open, and so has the rest of a push that a change
meets, even if the settings are recomputed before it ends. A render or latch step of such a push adds some symbols, about
which nothing is known, and is otherwise as R216 and R218 say. -/
def Obligations.MistunedOutputIsOpen : Prop :=
  (∀ (s : State) (ts : List Turn) (f : Nat), s.cfg.ok = true → s.sched = .clockChange f :: ts →
    (f ≠ s.fClk → step s = .next { s with sched := ts, fClk := f, tuned := false, ledOpen := true }) ∧
    (f = s.fClk → step s = .next { s with sched := ts })) ∧
  (∀ (s : State) (ts : List Turn) (d c : Nat), s.cfg.ok = true → s.sched = .retune d c :: ts →
    step s = .next { s with sched := ts, bitclkDiv := d, calInterval := c, tuned := true }) ∧
  (∀ (s t : State) (e : List Byte), s.tuned = false → s.cmdFault = false →
    exec (.push e) s = .next t → t.ledOpen = true) ∧
  (∀ s t : State, step s = .next t → s.ledOpen = true → s.pushState ≠ .idle → s.sched.head? ≠ some .reset →
    (s.sched.head? = some .host → s.pushDone = false) → t.ledOpen = true) ∧
  ∀ s : State, s.ledOpen = true →
    (∀ p : Pixel, s.pushState = .render → s.serPix < s.cfg.nLeds → s.pix[s.serPix]? = some p →
      pushStep s = .ok { s with
        ledOut := s.ledOut ++ Config.freeSymbols s.draws, draws := s.draws + 1, ledLine := .low,
        serBit := s.serBit + 1, serPix := if s.serBit.val = 23 then s.serPix + 1 else s.serPix }) ∧
    (s.pushState = .latch →
      pushStep s = .ok { s with
        ledOut := s.ledOut ++ Config.freeSymbols s.draws, draws := s.draws + 1, ledLine := .low,
        evtGate := false, pushState := .waitTx2 })

/-- R211 with R289: the sequencer's step is not taken while its guard does not hold: in Idle, and in the three waiting
states while `tx_ready = 0`. -/
def Obligations.SequencerWaitsForTransport : Prop :=
  ∀ s : State,
    (s.pushState = .idle ∨
      (s.txReady = false ∧ (s.pushState = .waitTx1 ∨ s.pushState = .waitBusyDone ∨ s.pushState = .waitTx2))) →
    pushStep s = .ok s

/-- R212: the wire word carries green, red, blue in that order, each most significant bit first. -/
def Obligations.WireWordIsGreenRedBlue : Prop :=
  ∀ (p : Pixel) (k : Nat), k < 8 →
    (grb p).getLsbD (23 - k) = p.g.getLsbD (7 - k) ∧
    (grb p).getLsbD (15 - k) = p.r.getLsbD (7 - k) ∧
    (grb p).getLsbD (7 - k) = p.b.getLsbD (7 - k)

/-- R213 (derived by the spec from R212): bit `k` of the stream is `grb(pix[k div 24])[23 - (k mod 24)]`, and the stream
has `24 * N_LEDS` bits. -/
def Obligations.BitStreamIndexing : Prop :=
  ∀ ps : List Pixel, (bitStream ps).length = 24 * ps.length ∧
    ∀ k, k < 24 * ps.length → ∃ p : Pixel, ps[k / 24]? = some p ∧
      (bitStream ps)[k]? = some ((grb p).getLsbD (23 - k % 24))

/-- R222 with R220 (derived by the spec from R213 to R220): a Push dispatched on the host's turn, with the transport idle
and its events taken without delay. After 7 turns the BUSY frame is on the wire, complete, and no symbol on the LED line;
after the turns of the render the bit stream of the pixel buffer is, without a Latch yet; after the Latch the wire still
ends with the BUSY frame; at the end the READY frame follows it, the host is released, the gate is open, and pixels, mask,
flags of the dispatcher and the RX path are as before. The run is one schedule of the model's (log 2), takes its request
from the model's queue (log 3), and is a push with the bit-clock settings recomputed (`tuned`, log 13). -/
def Obligations.PushRunsToCompletion : Prop :=
  ∀ (s : State) (m : Message) (e : List Byte) (q : List HostRequest) (ts : List Turn),
    Inv s → s.pushState = .idle → s.txReady = true → s.cmdFault = false → s.tuned = true →
    decodePacket s.cfg m = .push e →
    s.hostq = .dispatch m :: q → s.sched = .host :: (pushTurns s.cfg.nLeds ++ ts) →
    let busy : List Byte := [s.cfg.start, s.cfg.typeBusy, 0, s.cfg.typeBusy]
    let ready : List Byte := [s.cfg.start, s.cfg.typeReady, 0, s.cfg.typeReady]
    let bits : List LedSym := (bitStream s.pix).map .bit
    ∃ u v w t : State,
      core.run 7 s = .next u ∧ u.wireTx = s.wireTx ++ busy ∧ u.ledOut = s.ledOut ∧
      u.pushState = .render ∧ u.evtGate = true ∧
      core.run (24 * s.cfg.nLeds + 7) s = .next v ∧ v.wireTx = s.wireTx ++ busy ∧ v.ledOut = s.ledOut ++ bits ∧
      v.evtGate = true ∧
      core.run (24 * s.cfg.nLeds + 9) s = .next w ∧ w.wireTx = s.wireTx ++ busy ∧
      w.ledOut = s.ledOut ++ (bits ++ [.latch]) ∧ w.pushState = .waitTx2 ∧ w.evtGate = false ∧
      core.run (24 * s.cfg.nLeds + 14) s = .next t ∧ t.wireTx = s.wireTx ++ (busy ++ ready) ∧
      t.ledOut = s.ledOut ++ (bits ++ [.latch]) ∧
      t.pushState = .idle ∧ t.pushDone = true ∧ t.evtGate = false ∧ t.ledLine = .low ∧
      t.txReady = true ∧ t.txBusy = false ∧ t.txInflight = false ∧ t.txbuf.xfer = .done ∧
      t.errKind = s.errKind ∧ SameRx s t ∧ SameDispatcher s t ∧ SamePlatform s t ∧ t.hostq = q ∧ t.sched = ts

/-- R223: a 1 is a long high and a short low, a 0 a short high and a long low, with the parameters' durations; the latch
is a low of at least `T_LATCH` (R228). -/
def Obligations.NominalWaveforms : Prop :=
  ∀ c : Params, c.Valid →
    nominal c (.bit true) = [(.high, c.t1h), (.low, c.t1l)] ∧
    nominal c (.bit false) = [(.high, c.t0h), (.low, c.t0l)] ∧
    c.t0h < c.t1h ∧ c.t1l < c.t0l ∧
    (∀ y : LedSym, realises c y (nominal c y) = true)

/-- R229 (derived by the spec from R223 and R228): the gated interval of a push, any realisation within tolerance of the
whole pixel buffer's bit stream followed by any realisation of the Latch, takes at most
`24 * N_LEDS * T_BITMAX + T_LATCH_ACTUAL`, and its latch at least `T_LATCH`. -/
def Obligations.GatedIntervalIsBounded : Prop :=
  ∀ (s : State) (ws : List (List (Level × Nat))) (latch : List (Level × Nat)), s.pix.length = s.cfg.nLeds →
    List.Forall₂ (fun b w => realises s.cfg (.bit b) w = true) (bitStream s.pix) ws →
    realises s.cfg .latch latch = true →
    ((ws ++ [latch]).map duration).sum ≤ 24 * s.cfg.nLeds * bitMax s.cfg + duration latch ∧
    s.cfg.tLatch ≤ duration latch

/-! ### The whole machine -/

/-- Every instruction completes: from every state that meets the invariant, whatever the operands, `exec` answers a next
state (R257: an error never stops the machine; R62, R117, R145, R216: no index leaves its space). -/
def Obligations.EveryInstructionCompletes : Prop :=
  ∀ (i : Instr) (s : State), Inv s → ∃ t : State, exec i s = .next t

/-- Every step keeps the invariant of the block (R22, R23, R25, R26, R29, R31, R38, R39, R41 to R46, R62). -/
def Obligations.StepKeepsInvariant : Prop :=
  ∀ s t : State, Inv s → step s = .next t → Inv t

/-- No step from a state that meets the invariant stops: there is neither a fault nor a refusal (R61, R62: no access leaves
its space; R257: no trap). -/
def Obligations.StepNeverStops : Prop :=
  ∀ s : State, Inv s → ∃ t : State, step s = .next t

/-- R47: no step but reset removes or rewrites an entry of either history. -/
def Obligations.HistoriesOnlyGrow : Prop :=
  ∀ s t : State, step s = .next t → s.sched.head? ≠ some .reset →
    (∃ xs : List Byte, t.wireTx = s.wireTx ++ xs) ∧ (∃ ys : List LedSym, t.ledOut = s.ledOut ++ ys)

/-- R183, R39, R37: only a dispatch writes `pix`, `active_block` and `ok_to_send` (or `cmd_fault`, R33): no turn but the
host's and reset does, and on the host's turn no request but a dispatch. -/
def Obligations.OnlyDispatchWritesPixels : Prop :=
  ∀ s t : State, step s = .next t → s.sched.head? ≠ some .reset →
    (s.sched.head? ≠ some .host ∨
      (∀ m : Message, s.hostq.head? ≠ some (.dispatch m)) ∧ s.hostq.head? ≠ some .dispatchTaken) →
    SameDispatcher s t

/-- R10 and R61 (derived by the spec from R86): no packet but Clear writes a pixel at index 256 or above. -/
def Obligations.HighPixelsAreOutOfReach : Prop :=
  ∀ (s t : State) (m : Message) (j : Nat), 256 ≤ j → (∀ e, decodePacket s.cfg m ≠ .clear e) →
    exec (.dispatch m) s = .next t → t.pix[j]? = s.pix[j]?

/-- R122 (derived by the spec from R113 and R114): while a frame is going out, no turn but the TX event's and reset
changes the TX buffer, the TX counter, the byte in flight or what is on the wire. -/
def Obligations.BusyTransmitterOwnsItsBuffer : Prop :=
  ∀ s t : State, Inv s → step s = .next t → s.txBusy = true →
    s.sched.head? ≠ some .byteSent → s.sched.head? ≠ some .reset →
    t.txbuf = s.txbuf ∧ t.txIdx = s.txIdx ∧ t.txInflight = s.txInflight ∧ t.wireTx = s.wireTx

/-- R33: `cmd_fault` is sticky, and while it is 1 no step but reset changes `pix`, `active_block` or `ok_to_send`. -/
def Obligations.CmdFaultIsSticky : Prop :=
  ∀ s t : State, step s = .next t → s.sched.head? ≠ some .reset → s.cmdFault = true → SameDispatcher s t

/-- R34, R256 with R252 to R254: a step other than reset leaves `err_kind` alone or records a kind, and then that kind's
flag is 1. -/
def Obligations.ErrKindFollowsRaise : Prop :=
  ∀ s t : State, step s = .next t → s.sched.head? ≠ some .reset →
    t.errKind = s.errKind ∨
    (t.errKind = .checksumMismatch ∧ t.rxError = true) ∨
    (t.errKind = .sendWhileBusy ∧ t.txError = true) ∨
    (t.errKind = .indexOutOfRange ∧ t.cmdFault = true)

/-- R28 and R42: the writers of the six transport flags and of the gate. Each event of the table writes what the table
says, and no flag changes in any other step. -/
def Obligations.FlagsHaveTheirWriters : Prop :=
  ∀ s t : State, step s = .next t →
    (resets s → t.txReady = true ∧ t.txBusy = false ∧ t.rxReady = false ∧ t.rxBusy = false ∧ t.txError = false ∧
      t.rxError = false ∧ t.evtGate = false) ∧
    (postStep s → t.txReady = true ∧ t.txBusy = false) ∧
    (acceptsSend s → t.txReady = false ∧ t.txBusy = true ∧ t.txError = false) ∧
    (dropsSend s → t.txError = true) ∧
    (frameStart s → t.rxBusy = true ∧ t.rxReady = false ∧ t.rxError = false) ∧
    (∀ b, checksumStep s b → t.rxBusy = false ∧ t.rxReady = true ∧ (b ≠ rxSum s → t.rxError = true)) ∧
    (issues s .takeReceived → t.rxReady = false) ∧
    (t.txReady ≠ s.txReady → resets s ∨ postStep s ∨ acceptsSend s) ∧
    (t.txBusy ≠ s.txBusy → resets s ∨ postStep s ∨ acceptsSend s) ∧
    (t.rxReady ≠ s.rxReady → resets s ∨ frameStart s ∨ (∃ b, checksumStep s b) ∨ issues s .takeReceived) ∧
    (t.rxBusy ≠ s.rxBusy → resets s ∨ frameStart s ∨ ∃ b, checksumStep s b) ∧
    (t.txError ≠ s.txError → resets s ∨ acceptsSend s ∨ dropsSend s) ∧
    (t.rxError ≠ s.rxError → resets s ∨ frameStart s ∨ ∃ b, checksumStep s b ∧ b ≠ rxSum s) ∧
    (t.evtGate ≠ s.evtGate → resets s ∨ (s.sched.head? = some .sequencer ∧
      ((s.pushState = .waitBusyDone ∧ t.evtGate = true) ∨ (s.pushState = .latch ∧ t.evtGate = false))))

/-- R36: nothing but `read_status` reads `ok_to_send`: no other instruction, no step of the sequencer (its two sends among
them), and no step of the machine in which the host does not issue `read_status`. With the flag at any other value each
ends in the same outcome, the flag's own value apart. -/
def Obligations.OkToSendIsAdvisory : Prop :=
  (∀ (i : Instr) (s t : State) (b : Bool), i ≠ .readStatus → exec i s = .next t →
    ∃ c : Bool, exec i { s with okToSend := b } = .next { t with okToSend := c }) ∧
  (∀ (s t : State) (b : Bool), pushStep s = .ok t → pushStep { s with okToSend := b } = .ok { t with okToSend := b }) ∧
  (∀ (s t : State) (b : Bool), s.sched.head? ≠ some .host ∨ s.hostq.head? ≠ some .readStatus → step s = .next t →
    ∃ c : Bool, step { s with okToSend := b } = .next { t with okToSend := c })

/-- R72, R74, R221: while the gate is closed, from a state that meets the invariant, no turn of the host, of an event or of
the environment changes the transport's machines, the pixels, the mask or the output: only `rxq` can grow. -/
def Obligations.GateShieldsRender : Prop :=
  ∀ s t : State, Inv s → s.evtGate = true → step s = .next t →
    (s.sched.head? = some .host ∨ s.sched.head? = some .byteSent ∨ s.sched.head? = some .byteReceived ∨
      ∃ b, s.sched.head? = some (.rxArrive b)) →
    ∃ q : List Byte, t = { s with sched := s.sched.tail, rxq := s.rxq ++ q }

/-- R9: no step changes the parameters. A step under parameters that break the constraints is refused
(93_implementation_defined.md U2). -/
def Obligations.ParametersAreFixed : Prop :=
  (∀ s t : State, step s = .next t → t.cfg = s.cfg) ∧
  (∀ s : State, step s = .refused .badParameters ↔ ¬ s.cfg.Valid)
end

