-- ==== Sys2Proof/Laws/Decode.lean ====
section
/-! SUPPORT. The small lemmas of the checksum, the message payload, the LED_DATA groups and the configuration test. -/

namespace Sys2Proof

theorem Params.ok_iff (c : Params) : c.ok = true ↔ c.Valid := by
  constructor
  · intro h
    simp only [Params.ok, Bool.and_eq_true, decide_eq_true_eq] at h
    obtain ⟨⟨⟨⟨⟨⟨⟨⟨⟨h4, h5⟩, h6⟩, h7⟩, h8⟩, h9⟩, h10⟩, h1⟩, h2⟩, h3⟩ := h
    exact ⟨h1, h2, h3, h4, h5, h6, h7, h8, h9, h10⟩
  · rintro ⟨h1, h2, h3, h4, h5, h6, h7, h8, h9, h10⟩
    simp [Params.ok, *]

theorem Params.reference_valid : Params.reference.Valid := (Params.ok_iff _).1 (by decide)

@[simp] theorem cks_nil (t l : Byte) : cks t l [] = t ^^^ l := rfl

theorem foldl_xor (a : Byte) (d : List Byte) : d.foldl (· ^^^ ·) a = a ^^^ d.foldl (· ^^^ ·) 0 := by
  induction d generalizing a with
  | nil => simp
  | cons x d ih => simp only [List.foldl_cons]; rw [ih, ih (0 ^^^ x)]; simp [BitVec.xor_assoc]

theorem cks_eq (t l : Byte) (d : List Byte) : cks t l d = t ^^^ l ^^^ d.foldl (· ^^^ ·) 0 := foldl_xor _ _

theorem cks_append (t l : Byte) (d e : List Byte) : cks t l (d ++ e) = cks t l d ^^^ e.foldl (· ^^^ ·) 0 := by
  simp only [cks, List.foldl_append]; rw [foldl_xor]

@[simp] theorem clampLen_toNat (c : Params) (l : Byte) : (clampLen c l).toNat = min l.toNat c.maxData := by
  have := l.isLt
  simp only [clampLen, BitVec.toNat_ofNat]
  exact Nat.mod_eq_of_lt (by omega)

theorem clampLen_eq_zero (c : Params) (l : Byte) : clampLen c l = 0 ↔ min l.toNat c.maxData = 0 := by
  rw [← clampLen_toNat, ← BitVec.toNat_inj]; simp

@[simp] theorem clampLen_idem (c : Params) (l : Byte) : clampLen c (clampLen c l) = clampLen c l := by
  apply BitVec.eq_of_toNat_eq; simp

@[simp] theorem clampLen_zero (c : Params) : clampLen c 0#8 = 0#8 := by simp [clampLen]

theorem Message.len_le (c : Params) (m : Message) : m.len c ≤ c.maxData := Nat.min_le_right _ _

@[simp] theorem Message.payload_length (c : Params) (m : Message) : (m.payload c).length = m.len c := by
  simp only [Message.payload, List.length_append, List.length_take, List.length_map, List.length_range']
  omega

theorem Message.payload_of_le {c : Params} {m : Message} (h : m.len c ≤ m.data.length) :
    m.payload c = m.data.take (m.len c) := by
  simp [Message.payload, Nat.sub_eq_zero_of_le h]

theorem Message.payload_of_wf {c : Params} {m : Message} (h : m.wf c = true) :
    m.payload c = m.data.take (m.len c) :=
  Message.payload_of_le (by simpa [Message.wf, Message.len] using h)

theorem splitGroups_join (d : List Byte) : (splitGroups d).1.flatMap Group.bytes ++ (splitGroups d).2 = d := by
  fun_induction splitGroups d with
  | case1 i r g b rest ih => simpa [Group.bytes] using ih
  | case2 d h => simp

theorem splitGroups_trailing (d : List Byte) : (splitGroups d).2.length < 4 := by
  fun_induction splitGroups d with
  | case1 i r g b rest ih => exact ih
  | case2 d h =>
    match d, h with
    | [], _ => decide
    | [_], _ => simp
    | [_, _], _ => simp
    | [_, _, _], _ => simp
    | i :: r :: g :: b :: rest, h => exact absurd rfl (h i r g b rest)

theorem splitGroups_short (t : List Byte) (h : t.length < 4) : splitGroups t = ([], t) := by
  match t, h with
  | [], _ => rfl
  | [_], _ => rfl
  | [_, _], _ => rfl
  | [_, _, _], _ => rfl
  | _ :: _ :: _ :: _ :: _, h => simp at h; omega

theorem splitGroups_bytes (gs : List Group) (t : List Byte) (h : t.length < 4) :
    splitGroups (gs.flatMap Group.bytes ++ t) = (gs, t) := by
  induction gs with
  | nil => simpa using splitGroups_short t h
  | cons g gs ih => simp [Group.bytes] at ih ⊢; simp [splitGroups, ih]

theorem splitGroups_size (d : List Byte) :
    4 * (splitGroups d).1.length + (splitGroups d).2.length = d.length := by
  fun_induction splitGroups d with
  | case1 i r g b rest ih => simp; omega
  | case2 d h => simp

/-- The data bytes of a command are as many as its size says. -/
theorem Command.data_length (c : Params) (k : Command) : (k.data c).length = k.size := by
  cases k <;> simp [Command.data, Command.size, Group.bytes, List.length_flatMap] <;> omega

end Sys2Proof
end

