-- ==== Sys2Proof/Laws/State.lean ====
section
/-! SUPPORT. For each named update of State, one lemma per field: what the field is after it. -/

namespace Sys2Proof.Machine

@[simp] theorem sendByte_txbuf (b : Byte) (s : State) : (sendByte b s).txbuf = s.txbuf := rfl
@[simp] theorem sendByte_txIdx (b : Byte) (s : State) : (sendByte b s).txIdx = s.txIdx := rfl
@[simp] theorem sendByte_rxbuf (b : Byte) (s : State) : (sendByte b s).rxbuf = s.rxbuf := rfl
@[simp] theorem sendByte_rxIdx (b : Byte) (s : State) : (sendByte b s).rxIdx = s.rxIdx := rfl
@[simp] theorem sendByte_txReady (b : Byte) (s : State) : (sendByte b s).txReady = s.txReady := rfl
@[simp] theorem sendByte_txBusy (b : Byte) (s : State) : (sendByte b s).txBusy = s.txBusy := rfl
@[simp] theorem sendByte_rxReady (b : Byte) (s : State) : (sendByte b s).rxReady = s.rxReady := rfl
@[simp] theorem sendByte_rxBusy (b : Byte) (s : State) : (sendByte b s).rxBusy = s.rxBusy := rfl
@[simp] theorem sendByte_txError (b : Byte) (s : State) : (sendByte b s).txError = s.txError := rfl
@[simp] theorem sendByte_rxError (b : Byte) (s : State) : (sendByte b s).rxError = s.rxError := rfl
@[simp] theorem sendByte_cmdFault (b : Byte) (s : State) : (sendByte b s).cmdFault = s.cmdFault := rfl
@[simp] theorem sendByte_errKind (b : Byte) (s : State) : (sendByte b s).errKind = s.errKind := rfl
@[simp] theorem sendByte_okToSend (b : Byte) (s : State) : (sendByte b s).okToSend = s.okToSend := rfl
@[simp] theorem sendByte_activeBlock (b : Byte) (s : State) : (sendByte b s).activeBlock = s.activeBlock := rfl
@[simp] theorem sendByte_pix (b : Byte) (s : State) : (sendByte b s).pix = s.pix := rfl
@[simp] theorem sendByte_pushState (b : Byte) (s : State) : (sendByte b s).pushState = s.pushState := rfl
@[simp] theorem sendByte_serPix (b : Byte) (s : State) : (sendByte b s).serPix = s.serPix := rfl
@[simp] theorem sendByte_serBit (b : Byte) (s : State) : (sendByte b s).serBit = s.serBit := rfl
@[simp] theorem sendByte_evtGate (b : Byte) (s : State) : (sendByte b s).evtGate = s.evtGate := rfl
@[simp] theorem sendByte_ledLine (b : Byte) (s : State) : (sendByte b s).ledLine = s.ledLine := rfl
@[simp] theorem sendByte_pushDone (b : Byte) (s : State) : (sendByte b s).pushDone = s.pushDone := rfl
@[simp] theorem sendByte_rxq (b : Byte) (s : State) : (sendByte b s).rxq = s.rxq := rfl
@[simp] theorem sendByte_txInflight (b : Byte) (s : State) : (sendByte b s).txInflight = true := rfl
@[simp] theorem sendByte_wireTx (b : Byte) (s : State) : (sendByte b s).wireTx = s.wireTx ++ [b] := rfl
@[simp] theorem sendByte_ledOut (b : Byte) (s : State) : (sendByte b s).ledOut = s.ledOut := rfl
@[simp] theorem sendByte_cfg (b : Byte) (s : State) : (sendByte b s).cfg = s.cfg := rfl
@[simp] theorem sendByte_fClk (b : Byte) (s : State) : (sendByte b s).fClk = s.fClk := rfl
@[simp] theorem sendByte_bitclkDiv (b : Byte) (s : State) : (sendByte b s).bitclkDiv = s.bitclkDiv := rfl
@[simp] theorem sendByte_calInterval (b : Byte) (s : State) : (sendByte b s).calInterval = s.calInterval := rfl
@[simp] theorem sendByte_tuned (b : Byte) (s : State) : (sendByte b s).tuned = s.tuned := rfl
@[simp] theorem sendByte_ledOpen (b : Byte) (s : State) : (sendByte b s).ledOpen = s.ledOpen := rfl
@[simp] theorem sendByte_hostq (b : Byte) (s : State) : (sendByte b s).hostq = s.hostq := rfl
@[simp] theorem sendByte_sched (b : Byte) (s : State) : (sendByte b s).sched = s.sched := rfl
@[simp] theorem sendByte_draws (b : Byte) (s : State) : (sendByte b s).draws = s.draws := rfl
@[simp] theorem sendByte_takeResult (b : Byte) (s : State) : (sendByte b s).takeResult = s.takeResult := rfl
@[simp] theorem sendByte_statusResult (b : Byte) (s : State) : (sendByte b s).statusResult = s.statusResult := rfl

@[simp] theorem raiseError_txbuf (k : ErrKind) (s : State) : (raiseError k s).txbuf = s.txbuf := rfl
@[simp] theorem raiseError_txIdx (k : ErrKind) (s : State) : (raiseError k s).txIdx = s.txIdx := rfl
@[simp] theorem raiseError_rxbuf (k : ErrKind) (s : State) : (raiseError k s).rxbuf = s.rxbuf := rfl
@[simp] theorem raiseError_rxIdx (k : ErrKind) (s : State) : (raiseError k s).rxIdx = s.rxIdx := rfl
@[simp] theorem raiseError_txReady (k : ErrKind) (s : State) : (raiseError k s).txReady = s.txReady := rfl
@[simp] theorem raiseError_txBusy (k : ErrKind) (s : State) : (raiseError k s).txBusy = s.txBusy := rfl
@[simp] theorem raiseError_rxReady (k : ErrKind) (s : State) : (raiseError k s).rxReady = s.rxReady := rfl
@[simp] theorem raiseError_rxBusy (k : ErrKind) (s : State) : (raiseError k s).rxBusy = s.rxBusy := rfl
@[simp] theorem raiseError_txError (k : ErrKind) (s : State) : (raiseError k s).txError = if k = .sendWhileBusy then true else s.txError := rfl
@[simp] theorem raiseError_rxError (k : ErrKind) (s : State) : (raiseError k s).rxError = if k = .checksumMismatch then true else s.rxError := rfl
@[simp] theorem raiseError_cmdFault (k : ErrKind) (s : State) : (raiseError k s).cmdFault = if k = .indexOutOfRange then true else s.cmdFault := rfl
@[simp] theorem raiseError_errKind (k : ErrKind) (s : State) : (raiseError k s).errKind = k := rfl
@[simp] theorem raiseError_okToSend (k : ErrKind) (s : State) : (raiseError k s).okToSend = s.okToSend := rfl
@[simp] theorem raiseError_activeBlock (k : ErrKind) (s : State) : (raiseError k s).activeBlock = s.activeBlock := rfl
@[simp] theorem raiseError_pix (k : ErrKind) (s : State) : (raiseError k s).pix = s.pix := rfl
@[simp] theorem raiseError_pushState (k : ErrKind) (s : State) : (raiseError k s).pushState = s.pushState := rfl
@[simp] theorem raiseError_serPix (k : ErrKind) (s : State) : (raiseError k s).serPix = s.serPix := rfl
@[simp] theorem raiseError_serBit (k : ErrKind) (s : State) : (raiseError k s).serBit = s.serBit := rfl
@[simp] theorem raiseError_evtGate (k : ErrKind) (s : State) : (raiseError k s).evtGate = s.evtGate := rfl
@[simp] theorem raiseError_ledLine (k : ErrKind) (s : State) : (raiseError k s).ledLine = s.ledLine := rfl
@[simp] theorem raiseError_pushDone (k : ErrKind) (s : State) : (raiseError k s).pushDone = s.pushDone := rfl
@[simp] theorem raiseError_rxq (k : ErrKind) (s : State) : (raiseError k s).rxq = s.rxq := rfl
@[simp] theorem raiseError_txInflight (k : ErrKind) (s : State) : (raiseError k s).txInflight = s.txInflight := rfl
@[simp] theorem raiseError_wireTx (k : ErrKind) (s : State) : (raiseError k s).wireTx = s.wireTx := rfl
@[simp] theorem raiseError_ledOut (k : ErrKind) (s : State) : (raiseError k s).ledOut = s.ledOut := rfl
@[simp] theorem raiseError_cfg (k : ErrKind) (s : State) : (raiseError k s).cfg = s.cfg := rfl
@[simp] theorem raiseError_fClk (k : ErrKind) (s : State) : (raiseError k s).fClk = s.fClk := rfl
@[simp] theorem raiseError_bitclkDiv (k : ErrKind) (s : State) : (raiseError k s).bitclkDiv = s.bitclkDiv := rfl
@[simp] theorem raiseError_calInterval (k : ErrKind) (s : State) : (raiseError k s).calInterval = s.calInterval := rfl
@[simp] theorem raiseError_tuned (k : ErrKind) (s : State) : (raiseError k s).tuned = s.tuned := rfl
@[simp] theorem raiseError_ledOpen (k : ErrKind) (s : State) : (raiseError k s).ledOpen = s.ledOpen := rfl
@[simp] theorem raiseError_hostq (k : ErrKind) (s : State) : (raiseError k s).hostq = s.hostq := rfl
@[simp] theorem raiseError_sched (k : ErrKind) (s : State) : (raiseError k s).sched = s.sched := rfl
@[simp] theorem raiseError_draws (k : ErrKind) (s : State) : (raiseError k s).draws = s.draws := rfl
@[simp] theorem raiseError_takeResult (k : ErrKind) (s : State) : (raiseError k s).takeResult = s.takeResult := rfl
@[simp] theorem raiseError_statusResult (k : ErrKind) (s : State) : (raiseError k s).statusResult = s.statusResult := rfl

@[simp] theorem emitSym_txbuf (y : LedSym) (s : State) : (emitSym y s).txbuf = s.txbuf := rfl
@[simp] theorem emitSym_txIdx (y : LedSym) (s : State) : (emitSym y s).txIdx = s.txIdx := rfl
@[simp] theorem emitSym_rxbuf (y : LedSym) (s : State) : (emitSym y s).rxbuf = s.rxbuf := rfl
@[simp] theorem emitSym_rxIdx (y : LedSym) (s : State) : (emitSym y s).rxIdx = s.rxIdx := rfl
@[simp] theorem emitSym_txReady (y : LedSym) (s : State) : (emitSym y s).txReady = s.txReady := rfl
@[simp] theorem emitSym_txBusy (y : LedSym) (s : State) : (emitSym y s).txBusy = s.txBusy := rfl
@[simp] theorem emitSym_rxReady (y : LedSym) (s : State) : (emitSym y s).rxReady = s.rxReady := rfl
@[simp] theorem emitSym_rxBusy (y : LedSym) (s : State) : (emitSym y s).rxBusy = s.rxBusy := rfl
@[simp] theorem emitSym_txError (y : LedSym) (s : State) : (emitSym y s).txError = s.txError := rfl
@[simp] theorem emitSym_rxError (y : LedSym) (s : State) : (emitSym y s).rxError = s.rxError := rfl
@[simp] theorem emitSym_cmdFault (y : LedSym) (s : State) : (emitSym y s).cmdFault = s.cmdFault := rfl
@[simp] theorem emitSym_errKind (y : LedSym) (s : State) : (emitSym y s).errKind = s.errKind := rfl
@[simp] theorem emitSym_okToSend (y : LedSym) (s : State) : (emitSym y s).okToSend = s.okToSend := rfl
@[simp] theorem emitSym_activeBlock (y : LedSym) (s : State) : (emitSym y s).activeBlock = s.activeBlock := rfl
@[simp] theorem emitSym_pix (y : LedSym) (s : State) : (emitSym y s).pix = s.pix := rfl
@[simp] theorem emitSym_pushState (y : LedSym) (s : State) : (emitSym y s).pushState = s.pushState := rfl
@[simp] theorem emitSym_serPix (y : LedSym) (s : State) : (emitSym y s).serPix = s.serPix := rfl
@[simp] theorem emitSym_serBit (y : LedSym) (s : State) : (emitSym y s).serBit = s.serBit := rfl
@[simp] theorem emitSym_evtGate (y : LedSym) (s : State) : (emitSym y s).evtGate = s.evtGate := rfl
@[simp] theorem emitSym_ledLine (y : LedSym) (s : State) : (emitSym y s).ledLine = .low := rfl
@[simp] theorem emitSym_pushDone (y : LedSym) (s : State) : (emitSym y s).pushDone = s.pushDone := rfl
@[simp] theorem emitSym_rxq (y : LedSym) (s : State) : (emitSym y s).rxq = s.rxq := rfl
@[simp] theorem emitSym_txInflight (y : LedSym) (s : State) : (emitSym y s).txInflight = s.txInflight := rfl
@[simp] theorem emitSym_wireTx (y : LedSym) (s : State) : (emitSym y s).wireTx = s.wireTx := rfl
@[simp] theorem emitSym_ledOut (y : LedSym) (s : State) : (emitSym y s).ledOut = s.ledOut ++ (if s.ledOpen then Config.freeSymbols s.draws else [y]) := rfl
@[simp] theorem emitSym_cfg (y : LedSym) (s : State) : (emitSym y s).cfg = s.cfg := rfl
@[simp] theorem emitSym_fClk (y : LedSym) (s : State) : (emitSym y s).fClk = s.fClk := rfl
@[simp] theorem emitSym_bitclkDiv (y : LedSym) (s : State) : (emitSym y s).bitclkDiv = s.bitclkDiv := rfl
@[simp] theorem emitSym_calInterval (y : LedSym) (s : State) : (emitSym y s).calInterval = s.calInterval := rfl
@[simp] theorem emitSym_tuned (y : LedSym) (s : State) : (emitSym y s).tuned = s.tuned := rfl
@[simp] theorem emitSym_ledOpen (y : LedSym) (s : State) : (emitSym y s).ledOpen = s.ledOpen := rfl
@[simp] theorem emitSym_hostq (y : LedSym) (s : State) : (emitSym y s).hostq = s.hostq := rfl
@[simp] theorem emitSym_sched (y : LedSym) (s : State) : (emitSym y s).sched = s.sched := rfl
@[simp] theorem emitSym_draws (y : LedSym) (s : State) : (emitSym y s).draws = if s.ledOpen then s.draws + 1 else s.draws := rfl
@[simp] theorem emitSym_takeResult (y : LedSym) (s : State) : (emitSym y s).takeResult = s.takeResult := rfl
@[simp] theorem emitSym_statusResult (y : LedSym) (s : State) : (emitSym y s).statusResult = s.statusResult := rfl

@[simp] theorem txGoto_txbuf (x : XferState) (s : State) : (txGoto x s).txbuf = { s.txbuf with xfer := x } := rfl
@[simp] theorem txGoto_txIdx (x : XferState) (s : State) : (txGoto x s).txIdx = s.txIdx := rfl
@[simp] theorem txGoto_rxbuf (x : XferState) (s : State) : (txGoto x s).rxbuf = s.rxbuf := rfl
@[simp] theorem txGoto_rxIdx (x : XferState) (s : State) : (txGoto x s).rxIdx = s.rxIdx := rfl
@[simp] theorem txGoto_txReady (x : XferState) (s : State) : (txGoto x s).txReady = s.txReady := rfl
@[simp] theorem txGoto_txBusy (x : XferState) (s : State) : (txGoto x s).txBusy = s.txBusy := rfl
@[simp] theorem txGoto_rxReady (x : XferState) (s : State) : (txGoto x s).rxReady = s.rxReady := rfl
@[simp] theorem txGoto_rxBusy (x : XferState) (s : State) : (txGoto x s).rxBusy = s.rxBusy := rfl
@[simp] theorem txGoto_txError (x : XferState) (s : State) : (txGoto x s).txError = s.txError := rfl
@[simp] theorem txGoto_rxError (x : XferState) (s : State) : (txGoto x s).rxError = s.rxError := rfl
@[simp] theorem txGoto_cmdFault (x : XferState) (s : State) : (txGoto x s).cmdFault = s.cmdFault := rfl
@[simp] theorem txGoto_errKind (x : XferState) (s : State) : (txGoto x s).errKind = s.errKind := rfl
@[simp] theorem txGoto_okToSend (x : XferState) (s : State) : (txGoto x s).okToSend = s.okToSend := rfl
@[simp] theorem txGoto_activeBlock (x : XferState) (s : State) : (txGoto x s).activeBlock = s.activeBlock := rfl
@[simp] theorem txGoto_pix (x : XferState) (s : State) : (txGoto x s).pix = s.pix := rfl
@[simp] theorem txGoto_pushState (x : XferState) (s : State) : (txGoto x s).pushState = s.pushState := rfl
@[simp] theorem txGoto_serPix (x : XferState) (s : State) : (txGoto x s).serPix = s.serPix := rfl
@[simp] theorem txGoto_serBit (x : XferState) (s : State) : (txGoto x s).serBit = s.serBit := rfl
@[simp] theorem txGoto_evtGate (x : XferState) (s : State) : (txGoto x s).evtGate = s.evtGate := rfl
@[simp] theorem txGoto_ledLine (x : XferState) (s : State) : (txGoto x s).ledLine = s.ledLine := rfl
@[simp] theorem txGoto_pushDone (x : XferState) (s : State) : (txGoto x s).pushDone = s.pushDone := rfl
@[simp] theorem txGoto_rxq (x : XferState) (s : State) : (txGoto x s).rxq = s.rxq := rfl
@[simp] theorem txGoto_txInflight (x : XferState) (s : State) : (txGoto x s).txInflight = s.txInflight := rfl
@[simp] theorem txGoto_wireTx (x : XferState) (s : State) : (txGoto x s).wireTx = s.wireTx := rfl
@[simp] theorem txGoto_ledOut (x : XferState) (s : State) : (txGoto x s).ledOut = s.ledOut := rfl
@[simp] theorem txGoto_cfg (x : XferState) (s : State) : (txGoto x s).cfg = s.cfg := rfl
@[simp] theorem txGoto_fClk (x : XferState) (s : State) : (txGoto x s).fClk = s.fClk := rfl
@[simp] theorem txGoto_bitclkDiv (x : XferState) (s : State) : (txGoto x s).bitclkDiv = s.bitclkDiv := rfl
@[simp] theorem txGoto_calInterval (x : XferState) (s : State) : (txGoto x s).calInterval = s.calInterval := rfl
@[simp] theorem txGoto_tuned (x : XferState) (s : State) : (txGoto x s).tuned = s.tuned := rfl
@[simp] theorem txGoto_ledOpen (x : XferState) (s : State) : (txGoto x s).ledOpen = s.ledOpen := rfl
@[simp] theorem txGoto_hostq (x : XferState) (s : State) : (txGoto x s).hostq = s.hostq := rfl
@[simp] theorem txGoto_sched (x : XferState) (s : State) : (txGoto x s).sched = s.sched := rfl
@[simp] theorem txGoto_draws (x : XferState) (s : State) : (txGoto x s).draws = s.draws := rfl
@[simp] theorem txGoto_takeResult (x : XferState) (s : State) : (txGoto x s).takeResult = s.takeResult := rfl
@[simp] theorem txGoto_statusResult (x : XferState) (s : State) : (txGoto x s).statusResult = s.statusResult := rfl

@[simp] theorem rxGoto_txbuf (x : XferState) (s : State) : (rxGoto x s).txbuf = s.txbuf := rfl
@[simp] theorem rxGoto_txIdx (x : XferState) (s : State) : (rxGoto x s).txIdx = s.txIdx := rfl
@[simp] theorem rxGoto_rxbuf (x : XferState) (s : State) : (rxGoto x s).rxbuf = { s.rxbuf with xfer := x } := rfl
@[simp] theorem rxGoto_rxIdx (x : XferState) (s : State) : (rxGoto x s).rxIdx = s.rxIdx := rfl
@[simp] theorem rxGoto_txReady (x : XferState) (s : State) : (rxGoto x s).txReady = s.txReady := rfl
@[simp] theorem rxGoto_txBusy (x : XferState) (s : State) : (rxGoto x s).txBusy = s.txBusy := rfl
@[simp] theorem rxGoto_rxReady (x : XferState) (s : State) : (rxGoto x s).rxReady = s.rxReady := rfl
@[simp] theorem rxGoto_rxBusy (x : XferState) (s : State) : (rxGoto x s).rxBusy = s.rxBusy := rfl
@[simp] theorem rxGoto_txError (x : XferState) (s : State) : (rxGoto x s).txError = s.txError := rfl
@[simp] theorem rxGoto_rxError (x : XferState) (s : State) : (rxGoto x s).rxError = s.rxError := rfl
@[simp] theorem rxGoto_cmdFault (x : XferState) (s : State) : (rxGoto x s).cmdFault = s.cmdFault := rfl
@[simp] theorem rxGoto_errKind (x : XferState) (s : State) : (rxGoto x s).errKind = s.errKind := rfl
@[simp] theorem rxGoto_okToSend (x : XferState) (s : State) : (rxGoto x s).okToSend = s.okToSend := rfl
@[simp] theorem rxGoto_activeBlock (x : XferState) (s : State) : (rxGoto x s).activeBlock = s.activeBlock := rfl
@[simp] theorem rxGoto_pix (x : XferState) (s : State) : (rxGoto x s).pix = s.pix := rfl
@[simp] theorem rxGoto_pushState (x : XferState) (s : State) : (rxGoto x s).pushState = s.pushState := rfl
@[simp] theorem rxGoto_serPix (x : XferState) (s : State) : (rxGoto x s).serPix = s.serPix := rfl
@[simp] theorem rxGoto_serBit (x : XferState) (s : State) : (rxGoto x s).serBit = s.serBit := rfl
@[simp] theorem rxGoto_evtGate (x : XferState) (s : State) : (rxGoto x s).evtGate = s.evtGate := rfl
@[simp] theorem rxGoto_ledLine (x : XferState) (s : State) : (rxGoto x s).ledLine = s.ledLine := rfl
@[simp] theorem rxGoto_pushDone (x : XferState) (s : State) : (rxGoto x s).pushDone = s.pushDone := rfl
@[simp] theorem rxGoto_rxq (x : XferState) (s : State) : (rxGoto x s).rxq = s.rxq := rfl
@[simp] theorem rxGoto_txInflight (x : XferState) (s : State) : (rxGoto x s).txInflight = s.txInflight := rfl
@[simp] theorem rxGoto_wireTx (x : XferState) (s : State) : (rxGoto x s).wireTx = s.wireTx := rfl
@[simp] theorem rxGoto_ledOut (x : XferState) (s : State) : (rxGoto x s).ledOut = s.ledOut := rfl
@[simp] theorem rxGoto_cfg (x : XferState) (s : State) : (rxGoto x s).cfg = s.cfg := rfl
@[simp] theorem rxGoto_fClk (x : XferState) (s : State) : (rxGoto x s).fClk = s.fClk := rfl
@[simp] theorem rxGoto_bitclkDiv (x : XferState) (s : State) : (rxGoto x s).bitclkDiv = s.bitclkDiv := rfl
@[simp] theorem rxGoto_calInterval (x : XferState) (s : State) : (rxGoto x s).calInterval = s.calInterval := rfl
@[simp] theorem rxGoto_tuned (x : XferState) (s : State) : (rxGoto x s).tuned = s.tuned := rfl
@[simp] theorem rxGoto_ledOpen (x : XferState) (s : State) : (rxGoto x s).ledOpen = s.ledOpen := rfl
@[simp] theorem rxGoto_hostq (x : XferState) (s : State) : (rxGoto x s).hostq = s.hostq := rfl
@[simp] theorem rxGoto_sched (x : XferState) (s : State) : (rxGoto x s).sched = s.sched := rfl
@[simp] theorem rxGoto_draws (x : XferState) (s : State) : (rxGoto x s).draws = s.draws := rfl
@[simp] theorem rxGoto_takeResult (x : XferState) (s : State) : (rxGoto x s).takeResult = s.takeResult := rfl
@[simp] theorem rxGoto_statusResult (x : XferState) (s : State) : (rxGoto x s).statusResult = s.statusResult := rfl

@[simp] theorem changeClock_txbuf (f : Nat) (s : State) : (changeClock f s).txbuf = s.txbuf := rfl
@[simp] theorem changeClock_txIdx (f : Nat) (s : State) : (changeClock f s).txIdx = s.txIdx := rfl
@[simp] theorem changeClock_rxbuf (f : Nat) (s : State) : (changeClock f s).rxbuf = s.rxbuf := rfl
@[simp] theorem changeClock_rxIdx (f : Nat) (s : State) : (changeClock f s).rxIdx = s.rxIdx := rfl
@[simp] theorem changeClock_txReady (f : Nat) (s : State) : (changeClock f s).txReady = s.txReady := rfl
@[simp] theorem changeClock_txBusy (f : Nat) (s : State) : (changeClock f s).txBusy = s.txBusy := rfl
@[simp] theorem changeClock_rxReady (f : Nat) (s : State) : (changeClock f s).rxReady = s.rxReady := rfl
@[simp] theorem changeClock_rxBusy (f : Nat) (s : State) : (changeClock f s).rxBusy = s.rxBusy := rfl
@[simp] theorem changeClock_txError (f : Nat) (s : State) : (changeClock f s).txError = s.txError := rfl
@[simp] theorem changeClock_rxError (f : Nat) (s : State) : (changeClock f s).rxError = s.rxError := rfl
@[simp] theorem changeClock_cmdFault (f : Nat) (s : State) : (changeClock f s).cmdFault = s.cmdFault := rfl
@[simp] theorem changeClock_errKind (f : Nat) (s : State) : (changeClock f s).errKind = s.errKind := rfl
@[simp] theorem changeClock_okToSend (f : Nat) (s : State) : (changeClock f s).okToSend = s.okToSend := rfl
@[simp] theorem changeClock_activeBlock (f : Nat) (s : State) : (changeClock f s).activeBlock = s.activeBlock := rfl
@[simp] theorem changeClock_pix (f : Nat) (s : State) : (changeClock f s).pix = s.pix := rfl
@[simp] theorem changeClock_pushState (f : Nat) (s : State) : (changeClock f s).pushState = s.pushState := rfl
@[simp] theorem changeClock_serPix (f : Nat) (s : State) : (changeClock f s).serPix = s.serPix := rfl
@[simp] theorem changeClock_serBit (f : Nat) (s : State) : (changeClock f s).serBit = s.serBit := rfl
@[simp] theorem changeClock_evtGate (f : Nat) (s : State) : (changeClock f s).evtGate = s.evtGate := rfl
@[simp] theorem changeClock_ledLine (f : Nat) (s : State) : (changeClock f s).ledLine = s.ledLine := rfl
@[simp] theorem changeClock_pushDone (f : Nat) (s : State) : (changeClock f s).pushDone = s.pushDone := rfl
@[simp] theorem changeClock_rxq (f : Nat) (s : State) : (changeClock f s).rxq = s.rxq := rfl
@[simp] theorem changeClock_txInflight (f : Nat) (s : State) : (changeClock f s).txInflight = s.txInflight := rfl
@[simp] theorem changeClock_wireTx (f : Nat) (s : State) : (changeClock f s).wireTx = s.wireTx := rfl
@[simp] theorem changeClock_ledOut (f : Nat) (s : State) : (changeClock f s).ledOut = s.ledOut := rfl
@[simp] theorem changeClock_cfg (f : Nat) (s : State) : (changeClock f s).cfg = s.cfg := rfl
@[simp] theorem changeClock_fClk (f : Nat) (s : State) : (changeClock f s).fClk = f := rfl
@[simp] theorem changeClock_bitclkDiv (f : Nat) (s : State) : (changeClock f s).bitclkDiv = s.bitclkDiv := rfl
@[simp] theorem changeClock_calInterval (f : Nat) (s : State) : (changeClock f s).calInterval = s.calInterval := rfl
@[simp] theorem changeClock_tuned (f : Nat) (s : State) : (changeClock f s).tuned = (s.tuned && f == s.fClk) := rfl
@[simp] theorem changeClock_ledOpen (f : Nat) (s : State) : (changeClock f s).ledOpen = (s.ledOpen || f != s.fClk) := rfl
@[simp] theorem changeClock_hostq (f : Nat) (s : State) : (changeClock f s).hostq = s.hostq := rfl
@[simp] theorem changeClock_sched (f : Nat) (s : State) : (changeClock f s).sched = s.sched := rfl
@[simp] theorem changeClock_draws (f : Nat) (s : State) : (changeClock f s).draws = s.draws := rfl
@[simp] theorem changeClock_takeResult (f : Nat) (s : State) : (changeClock f s).takeResult = s.takeResult := rfl
@[simp] theorem changeClock_statusResult (f : Nat) (s : State) : (changeClock f s).statusResult = s.statusResult := rfl

@[simp] theorem retune_txbuf (div cal : Nat) (s : State) : (retune div cal s).txbuf = s.txbuf := rfl
@[simp] theorem retune_txIdx (div cal : Nat) (s : State) : (retune div cal s).txIdx = s.txIdx := rfl
@[simp] theorem retune_rxbuf (div cal : Nat) (s : State) : (retune div cal s).rxbuf = s.rxbuf := rfl
@[simp] theorem retune_rxIdx (div cal : Nat) (s : State) : (retune div cal s).rxIdx = s.rxIdx := rfl
@[simp] theorem retune_txReady (div cal : Nat) (s : State) : (retune div cal s).txReady = s.txReady := rfl
@[simp] theorem retune_txBusy (div cal : Nat) (s : State) : (retune div cal s).txBusy = s.txBusy := rfl
@[simp] theorem retune_rxReady (div cal : Nat) (s : State) : (retune div cal s).rxReady = s.rxReady := rfl
@[simp] theorem retune_rxBusy (div cal : Nat) (s : State) : (retune div cal s).rxBusy = s.rxBusy := rfl
@[simp] theorem retune_txError (div cal : Nat) (s : State) : (retune div cal s).txError = s.txError := rfl
@[simp] theorem retune_rxError (div cal : Nat) (s : State) : (retune div cal s).rxError = s.rxError := rfl
@[simp] theorem retune_cmdFault (div cal : Nat) (s : State) : (retune div cal s).cmdFault = s.cmdFault := rfl
@[simp] theorem retune_errKind (div cal : Nat) (s : State) : (retune div cal s).errKind = s.errKind := rfl
@[simp] theorem retune_okToSend (div cal : Nat) (s : State) : (retune div cal s).okToSend = s.okToSend := rfl
@[simp] theorem retune_activeBlock (div cal : Nat) (s : State) : (retune div cal s).activeBlock = s.activeBlock := rfl
@[simp] theorem retune_pix (div cal : Nat) (s : State) : (retune div cal s).pix = s.pix := rfl
@[simp] theorem retune_pushState (div cal : Nat) (s : State) : (retune div cal s).pushState = s.pushState := rfl
@[simp] theorem retune_serPix (div cal : Nat) (s : State) : (retune div cal s).serPix = s.serPix := rfl
@[simp] theorem retune_serBit (div cal : Nat) (s : State) : (retune div cal s).serBit = s.serBit := rfl
@[simp] theorem retune_evtGate (div cal : Nat) (s : State) : (retune div cal s).evtGate = s.evtGate := rfl
@[simp] theorem retune_ledLine (div cal : Nat) (s : State) : (retune div cal s).ledLine = s.ledLine := rfl
@[simp] theorem retune_pushDone (div cal : Nat) (s : State) : (retune div cal s).pushDone = s.pushDone := rfl
@[simp] theorem retune_rxq (div cal : Nat) (s : State) : (retune div cal s).rxq = s.rxq := rfl
@[simp] theorem retune_txInflight (div cal : Nat) (s : State) : (retune div cal s).txInflight = s.txInflight := rfl
@[simp] theorem retune_wireTx (div cal : Nat) (s : State) : (retune div cal s).wireTx = s.wireTx := rfl
@[simp] theorem retune_ledOut (div cal : Nat) (s : State) : (retune div cal s).ledOut = s.ledOut := rfl
@[simp] theorem retune_cfg (div cal : Nat) (s : State) : (retune div cal s).cfg = s.cfg := rfl
@[simp] theorem retune_fClk (div cal : Nat) (s : State) : (retune div cal s).fClk = s.fClk := rfl
@[simp] theorem retune_bitclkDiv (div cal : Nat) (s : State) : (retune div cal s).bitclkDiv = div := rfl
@[simp] theorem retune_calInterval (div cal : Nat) (s : State) : (retune div cal s).calInterval = cal := rfl
@[simp] theorem retune_tuned (div cal : Nat) (s : State) : (retune div cal s).tuned = true := rfl
@[simp] theorem retune_ledOpen (div cal : Nat) (s : State) : (retune div cal s).ledOpen = s.ledOpen := rfl
@[simp] theorem retune_hostq (div cal : Nat) (s : State) : (retune div cal s).hostq = s.hostq := rfl
@[simp] theorem retune_sched (div cal : Nat) (s : State) : (retune div cal s).sched = s.sched := rfl
@[simp] theorem retune_draws (div cal : Nat) (s : State) : (retune div cal s).draws = s.draws := rfl
@[simp] theorem retune_takeResult (div cal : Nat) (s : State) : (retune div cal s).takeResult = s.takeResult := rfl
@[simp] theorem retune_statusResult (div cal : Nat) (s : State) : (retune div cal s).statusResult = s.statusResult := rfl

end Sys2Proof.Machine
end

