-- ==== Sys2Proof/Laws/Ops.lean ====
section
/-! SUPPORT. For each operation over the storage spaces, what it can do; the reads and writes of the pixel space and of
the data spaces; and that every operation keeps the lengths of the spaces. -/

namespace Sys2Proof.Machine

theorem inRange_iff (s : State) (x : Byte) : inRange s x = true ↔ index s x < s.cfg.nLeds := by
  simp [inRange]

theorem pixWrite_of_lt {i : Nat} {s : State} (p : Pixel) (h : i < s.pix.length) :
    pixWrite i p s = .ok { s with pix := s.pix.set i p } := by simp [pixWrite, h]

/-- A pixel write answers next only in range, changes `pix` alone, and keeps its length. -/
theorem pixWrite_cases {i : Nat} {p : Pixel} {s t : State} (h : pixWrite i p s = .ok t) :
    i < s.pix.length ∧ t = { s with pix := s.pix.set i p } := by
  unfold pixWrite at h
  split at h
  · next hi => cases h; exact ⟨hi, rfl⟩
  · cases h

/-- Read after write, at the same entry. -/
theorem pixRead_pixWrite_same {i : Nat} {p : Pixel} {s t : State} (h : pixWrite i p s = .ok t) :
    pixRead t i = .ok p := by
  obtain ⟨hi, rfl⟩ := pixWrite_cases h
  simp [pixRead, hi]

/-- A pixel write leaves every other entry alone. -/
theorem pixRead_pixWrite_other {i j : Nat} {p : Pixel} {s t : State} (h : pixWrite i p s = .ok t) (hj : j ≠ i) :
    pixRead t j = pixRead s j := by
  obtain ⟨hi, rfl⟩ := pixWrite_cases h
  simp [pixRead, hj.symm]

theorem pixRead_of_lt {s : State} {i : Nat} (h : i < s.pix.length) : pixRead s i = .ok s.pix[i] := by
  simp [pixRead, h]

theorem bufWrite_of_lt {b : Packet} {i : Nat} (v : Byte) (h : i < b.data.length) :
    bufWrite b i v = .ok { b with data := b.data.set i v } := by simp [bufWrite, h]

theorem bufRead_of_lt {b : Packet} {i : Nat} (h : i < b.data.length) : bufRead b i = .ok b.data[i] := by
  simp [bufRead, h]

theorem bufWrite_cases {b c : Packet} {i : Nat} {v : Byte} (h : bufWrite b i v = .ok c) :
    i < b.data.length ∧ c = { b with data := b.data.set i v } := by
  unfold bufWrite at h
  split at h
  · next hi => cases h; exact ⟨hi, rfl⟩
  · cases h

@[simp] theorem freeTail_length (k n m : Nat) : (freeTail k n m).length = m - n := by simp [freeTail]

@[simp] theorem freeTail_self (k n : Nat) : freeTail k n n = [] := by simp [freeTail]

@[simp] theorem freeFrom_data_length (k n : Nat) (b : Packet) : (freeFrom k n b).data.length = b.data.length := by
  simp only [freeFrom, List.length_append, List.length_take, freeTail_length]; omega

theorem freeFrom_data_take (k n : Nat) (b : Packet) : (freeFrom k n b).data.take n = b.data.take n := by
  simp only [freeFrom]
  by_cases h : n ≤ b.data.length
  · rw [List.take_append_of_le_length (by simp [h])]; simp
  · have : freeTail k n b.data.length = [] := by simp [freeTail, Nat.sub_eq_zero_of_le (Nat.le_of_not_le h)]
    simp [this]

theorem sendBuffer_data_length (m : Message) (s : State) (h : m.len s.cfg ≤ s.txbuf.data.length) :
    (sendBuffer m s).data.length = s.txbuf.data.length := by
  simp [sendBuffer]; omega

/-- What a list of copies leaves: destinations in range, then either the end or one out of range. -/
theorem copyTo_ok (v : Pixel) (ds : List Byte) (s : State) (hp : s.pix.length = s.cfg.nLeds)
    (hd : ∀ d ∈ ds, index s d < s.cfg.nLeds) (rest : List Byte) :
    ∃ p : List Pixel, copyTo v (ds ++ rest) s = copyTo v rest { s with pix := p } ∧ p.length = s.pix.length ∧
      ∀ j, p[j]? = if ∃ d ∈ ds, index s d = j then some v else s.pix[j]? := by
  induction ds generalizing s with
  | nil => exact ⟨s.pix, rfl, rfl, by simp⟩
  | cons d ds ih =>
    have h0 : index s d < s.cfg.nLeds := hd d (by simp)
    have hw := pixWrite_of_lt v (hp ▸ h0 : index s d < s.pix.length)
    obtain ⟨p, he, hl, hj⟩ := ih { s with pix := s.pix.set (index s d) v } (by simpa using hp)
      (fun e he => hd e (by simp [he]))
    refine ⟨p, ?_, by simpa using hl, fun j => ?_⟩
    · rw [List.cons_append, copyTo, if_pos ((inRange_iff s d).2 h0), hw]; exact he
    · rw [hj j]
      have hi : ∀ e, index { s with pix := s.pix.set (index s d) v } e = index s e := fun _ => rfl
      simp only [hi]
      by_cases h1 : ∃ e ∈ ds, index s e = j
      · rw [if_pos h1, if_pos]
        obtain ⟨e, he, h⟩ := h1
        exact ⟨e, by simp [he], h⟩
      · rw [if_neg h1]
        by_cases h2 : index s d = j
        · subst h2
          rw [if_pos ⟨d, by simp, rfl⟩]
          simp [hp ▸ h0]
        · rw [if_neg, List.getElem?_set_ne h2]
          rintro ⟨e, he, h⟩
          rcases List.mem_cons.1 he with rfl | he
          · exact h2 h
          · exact h1 ⟨e, he, h⟩

/-- What a list of groups leaves: each addressed pixel has its last group's colour. -/
theorem writeGroups_ok (gs : List Group) (s : State) (hp : s.pix.length = s.cfg.nLeds)
    (hd : ∀ g ∈ gs, index s g.index < s.cfg.nLeds) (rest : List Group) :
    ∃ p : List Pixel, writeGroups (gs ++ rest) s = writeGroups rest { s with pix := p } ∧
      p.length = s.pix.length ∧
      ∀ j, p[j]? =
        match (gs.filter fun g => decide (index s g.index = j)).getLast? with
        | some g => some (groupPixel g)
        | none => s.pix[j]? := by
  induction gs generalizing s with
  | nil => exact ⟨s.pix, rfl, rfl, by simp⟩
  | cons g gs ih =>
    have h0 : index s g.index < s.cfg.nLeds := hd g (by simp)
    have hw := pixWrite_of_lt (groupPixel g) (hp ▸ h0 : index s g.index < s.pix.length)
    obtain ⟨p, he, hl, hj⟩ := ih { s with pix := s.pix.set (index s g.index) (groupPixel g) } (by simpa using hp)
      (fun e he => hd e (by simp [he]))
    refine ⟨p, ?_, by simpa using hl, fun j => ?_⟩
    · rw [List.cons_append, writeGroups, if_pos ((inRange_iff s _).2 h0), hw]; exact he
    · rw [hj j]
      have hi : ∀ e, index { s with pix := s.pix.set (index s g.index) (groupPixel g) } e = index s e := fun _ => rfl
      simp only [hi]
      by_cases h2 : index s g.index = j
      · rw [List.filter_cons_of_pos (by simpa using h2), List.getLast?_cons]
        cases h : (gs.filter fun g => decide (index s g.index = j)).getLast? with
        | none => subst h2; simp [hp ▸ h0]
        | some q => simp
      · rw [List.filter_cons_of_neg (by simpa using h2), List.getElem?_set_ne h2]

/-- A destination out of range ends the copy (R181). -/
theorem copyTo_outOfRange (v : Pixel) {d : Byte} (ds : List Byte) {s : State} (h : s.cfg.nLeds ≤ index s d) :
    copyTo v (d :: ds) s = .ok (raiseError .indexOutOfRange s) := by
  rw [copyTo, if_neg (by simpa [inRange_iff] using h)]

/-- A group out of range ends the packet (R181). -/
theorem writeGroups_outOfRange {g : Group} (gs : List Group) {s : State} (h : s.cfg.nLeds ≤ index s g.index) :
    writeGroups (g :: gs) s = .ok (raiseError .indexOutOfRange s) := by
  rw [writeGroups, if_neg (by simpa [inRange_iff] using h)]

/-- Copy with its source in range is the write of the source's pixel to the destinations. -/
theorem copyFrom_inRange {x : Byte} (ds : List Byte) {s : State} (hp : s.pix.length = s.cfg.nLeds)
    (h : index s x < s.cfg.nLeds) : copyFrom x ds s = copyTo (s.pix[index s x]'(hp ▸ h)) ds s := by
  rw [copyFrom, if_pos ((inRange_iff s x).2 h), pixRead_of_lt (hp ▸ h)]

/-- A copy, whatever the indices, ends in a state that differs in `pix` and perhaps in the record of
IndexOutOfRange, and never stops while the pixel space has its length. -/
theorem copyTo_total (v : Pixel) (ds : List Byte) (s : State) (hp : s.pix.length = s.cfg.nLeds) :
    ∃ p : List Pixel, p.length = s.pix.length ∧
      (copyTo v ds s = .ok { s with pix := p } ∨
       copyTo v ds s = .ok (raiseError .indexOutOfRange { s with pix := p })) := by
  induction ds generalizing s with
  | nil => exact ⟨s.pix, rfl, .inl rfl⟩
  | cons d ds ih =>
    by_cases h0 : index s d < s.cfg.nLeds
    · obtain ⟨p, hl, h⟩ := ih { s with pix := s.pix.set (index s d) v } (by simpa using hp)
      refine ⟨p, by simpa using hl, ?_⟩
      rw [copyTo, if_pos ((inRange_iff s d).2 h0), pixWrite_of_lt v (hp ▸ h0 : index s d < s.pix.length)]
      exact h
    · exact ⟨s.pix, rfl, .inr (by rw [copyTo, if_neg (by simpa [inRange_iff] using h0)])⟩

/-- The same for groups. -/
theorem writeGroups_total (gs : List Group) (s : State) (hp : s.pix.length = s.cfg.nLeds) :
    ∃ p : List Pixel, p.length = s.pix.length ∧
      (writeGroups gs s = .ok { s with pix := p } ∨
       writeGroups gs s = .ok (raiseError .indexOutOfRange { s with pix := p })) := by
  induction gs generalizing s with
  | nil => exact ⟨s.pix, rfl, .inl rfl⟩
  | cons g gs ih =>
    by_cases h0 : index s g.index < s.cfg.nLeds
    · obtain ⟨p, hl, h⟩ := ih { s with pix := s.pix.set (index s g.index) (groupPixel g) } (by simpa using hp)
      refine ⟨p, by simpa using hl, ?_⟩
      rw [writeGroups, if_pos ((inRange_iff s _).2 h0),
        pixWrite_of_lt _ (hp ▸ h0 : index s g.index < s.pix.length)]
      exact h
    · exact ⟨s.pix, rfl, .inr (by rw [writeGroups, if_neg (by simpa [inRange_iff] using h0)])⟩

/-- A copy that answers a next state: whatever the lengths, only `pix` and perhaps the IndexOutOfRange record differ. -/
theorem copyTo_cases {v : Pixel} {ds : List Byte} {s t : State} (h : copyTo v ds s = .ok t) :
    ∃ p : List Pixel, p.length = s.pix.length ∧
      (t = { s with pix := p } ∨ t = raiseError .indexOutOfRange { s with pix := p }) := by
  induction ds generalizing s with
  | nil => cases h; exact ⟨_, rfl, .inl rfl⟩
  | cons d ds ih =>
    rw [copyTo] at h
    split at h
    · split at h
      · cases h
      · next u hu =>
        obtain ⟨-, rfl⟩ := pixWrite_cases hu
        obtain ⟨p, hl, hc⟩ := ih h
        exact ⟨p, by simpa using hl, hc⟩
    · cases h; exact ⟨s.pix, rfl, .inr rfl⟩

theorem writeGroups_cases {gs : List Group} {s t : State} (h : writeGroups gs s = .ok t) :
    ∃ p : List Pixel, p.length = s.pix.length ∧
      (t = { s with pix := p } ∨ t = raiseError .indexOutOfRange { s with pix := p }) := by
  induction gs generalizing s with
  | nil => cases h; exact ⟨_, rfl, .inl rfl⟩
  | cons g gs ih =>
    rw [writeGroups] at h
    split at h
    · split at h
      · cases h
      · next u hu =>
        obtain ⟨-, rfl⟩ := pixWrite_cases hu
        obtain ⟨p, hl, hc⟩ := ih h
        exact ⟨p, by simpa using hl, hc⟩
    · cases h; exact ⟨s.pix, rfl, .inr rfl⟩

theorem copyFrom_cases {x : Byte} {ds : List Byte} {s t : State} (h : copyFrom x ds s = .ok t) :
    ∃ p : List Pixel, p.length = s.pix.length ∧
      (t = { s with pix := p } ∨ t = raiseError .indexOutOfRange { s with pix := p }) := by
  unfold copyFrom at h
  split at h
  · split at h
    · cases h
    · exact copyTo_cases h
  · cases h; exact ⟨s.pix, rfl, .inr rfl⟩

end Sys2Proof.Machine
end

