-- ==== Sys2Proof/Laws/Step.lean ====
section
/-! SUPPORT. What each meaning, each turn and the step can do, said once: if it answers a next state, then one of these
cases holds. -/

namespace Sys2Proof.Machine

theorem finish_next {e : Except Fault State} {t : State} : finish e = .next t ↔ e = .ok t := by
  cases e <;> simp [finish]

/-- The entry test: refused without a change, or the effect. -/
theorem admitted_cases {f : State → Except Fault State} {s t : State} (h : admitted f s = .next t) :
    (s.cmdFault = true ∧ t = s) ∨ (s.cmdFault = false ∧ f s = .ok t) := by
  unfold admitted at h
  split at h
  · next hc => cases h; exact .inl ⟨hc, rfl⟩
  · next hc => exact .inr ⟨by simpa using hc, finish_next.1 h⟩

theorem admitted_ok {f : State → Except Fault State} {s t : State} (hc : s.cmdFault = false) (h : f s = .ok t) :
    admitted f s = .next t := by simp [admitted, hc, h, finish]

@[simp] theorem exec_toInstr (k : Command) (s : State) : exec k.toInstr s = execCommand k s := by cases k <;> rfl

/-- With `cmd_fault = 1` no packet has an effect (R170). -/
theorem execCommand_refused (k : Command) {s : State} (h : s.cmdFault = true) : execCommand k s = .next s := by
  cases k <;> simp [execCommand, execEmpty, execTest, execCtrlNone, execSelblk, execCopy, execClear, execPush,
    execCtrlReserved, execLeddata, execBusy, execReady, execTypeUnassigned, admitted, h]

/-- What a dispatched packet can do: nothing, or one of the dispatcher's five effects. -/
theorem execCommand_cases {k : Command} {s t : State} (h : execCommand k s = .next t) :
    t = s ∨ (s.cmdFault = false ∧
      ((∃ b : Byte, t = { s with activeBlock := b.zeroExtend 16 }) ∨
       (∃ p : List Pixel, p.length = s.pix.length ∧ t = { s with pix := p }) ∨
       (∃ p : List Pixel, p.length = s.pix.length ∧ t = raiseError .indexOutOfRange { s with pix := p }) ∨
       t = { s with pushDone := false, pushState := .waitTx1, ledOpen := !s.tuned } ∨
       (∃ b : Bool, t = { s with okToSend := b }))) := by
  have pixels : ∀ {u : State}, (∃ p : List Pixel, p.length = s.pix.length ∧
      (u = { s with pix := p } ∨ u = raiseError .indexOutOfRange { s with pix := p })) →
      (∃ p : List Pixel, p.length = s.pix.length ∧ u = { s with pix := p }) ∨
      (∃ p : List Pixel, p.length = s.pix.length ∧ u = raiseError .indexOutOfRange { s with pix := p }) := by
    rintro u ⟨p, hl, rfl | rfl⟩
    · exact .inl ⟨p, hl, rfl⟩
    · exact .inr ⟨p, hl, rfl⟩
  cases k with
  | empty | test | ctrlNone | ctrlReserved | typeUnassigned =>
    rcases admitted_cases h with ⟨-, rfl⟩ | ⟨-, h⟩
    · exact .inl rfl
    · cases h; exact .inl rfl
  | selblk b e =>
    simp only [execCommand, execSelblk] at h
    rcases admitted_cases h with ⟨-, rfl⟩ | ⟨hc, h⟩
    · exact .inl rfl
    · cases b with
      | none => cases h; exact .inl rfl
      | some b => cases h; exact .inr ⟨hc, .inl ⟨b, rfl⟩⟩
  | copy x d =>
    simp only [execCommand, execCopy] at h
    rcases admitted_cases h with ⟨-, rfl⟩ | ⟨hc, h⟩
    · exact .inl rfl
    · cases x with
      | none => cases h; exact .inl rfl
      | some x => exact .inr ⟨hc, .inr (by rcases pixels (copyFrom_cases h) with h | h <;> simp [h])⟩
  | clear e =>
    simp only [execCommand, execClear] at h
    rcases admitted_cases h with ⟨-, rfl⟩ | ⟨hc, h⟩
    · exact .inl rfl
    · cases h; exact .inr ⟨hc, .inr (.inl ⟨_, by simp, rfl⟩)⟩
  | push e =>
    simp only [execCommand, execPush] at h
    rcases admitted_cases h with ⟨-, rfl⟩ | ⟨hc, h⟩
    · exact .inl rfl
    · cases h; exact .inr ⟨hc, by simp⟩
  | leddata g tr =>
    simp only [execCommand, execLeddata] at h
    rcases admitted_cases h with ⟨-, rfl⟩ | ⟨hc, h⟩
    · exact .inl rfl
    · exact .inr ⟨hc, .inr (by rcases pixels (writeGroups_cases h) with h | h <;> simp [h])⟩
  | busy p =>
    simp only [execCommand, execBusy] at h
    rcases admitted_cases h with ⟨-, rfl⟩ | ⟨hc, h⟩
    · exact .inl rfl
    · cases h; exact .inr ⟨hc, .inr (.inr (.inr (.inr ⟨_, rfl⟩)))⟩
  | ready p =>
    simp only [execCommand, execReady] at h
    rcases admitted_cases h with ⟨-, rfl⟩ | ⟨hc, h⟩
    · exact .inl rfl
    · cases h; exact .inr ⟨hc, .inr (.inr (.inr (.inr ⟨_, rfl⟩)))⟩

theorem execDispatch_eq (m : Message) (s : State) : execDispatch m s = execCommand (decodePacket s.cfg m) s := by
  unfold execDispatch
  split
  · next h => rw [execCommand_refused _ h]
  · rfl

/-- A packet never stops the machine while the pixel space has its length. -/
theorem execCommand_total (k : Command) (s : State) (hp : s.pix.length = s.cfg.nLeds) :
    ∃ t, execCommand k s = .next t := by
  by_cases hc : s.cmdFault = true
  · exact ⟨s, execCommand_refused k hc⟩
  have hf : s.cmdFault = false := by simpa using hc
  cases k with
  | empty | test | ctrlNone | ctrlReserved | typeUnassigned | clear | push | busy | ready =>
    simp [execCommand, execEmpty, execTest, execCtrlNone, execClear, execPush, execCtrlReserved, execBusy, execReady,
      execTypeUnassigned, admitted, hf, finish]
  | selblk b e => cases b <;> simp [execCommand, execSelblk, admitted, hf, finish]
  | copy x d =>
    cases x with
    | none => simp [execCommand, execCopy, admitted, hf, finish]
    | some x =>
      by_cases hr : index s x < s.cfg.nLeds
      · obtain ⟨p, -, h | h⟩ := copyTo_total (s.pix[index s x]'(hp ▸ hr)) d s hp <;>
          simp [execCommand, execCopy, admitted, hf, copyFrom, inRange_iff, hr, pixRead_of_lt (hp ▸ hr), h, finish]
      · simp [execCommand, execCopy, admitted, hf, copyFrom, inRange_iff, hr, finish]
  | leddata g tr =>
    obtain ⟨p, -, h | h⟩ := writeGroups_total g s hp <;> simp [execCommand, execLeddata, admitted, hf, h, finish]

/-- A `byte_sent` event: nothing, or one of R115 to R120. -/
theorem execByteSent_cases {s t : State} (h : execByteSent s = .next t) :
    t = s ∨ (s.txInflight = true ∧ s.evtGate = false ∧
      (((s.txbuf.xfer = .init ∨ s.txbuf.xfer = .done) ∧ t = { s with txInflight := false }) ∨
       (s.txbuf.xfer = .type ∧ t = txTypeStep { s with txInflight := false }) ∨
       (s.txbuf.xfer = .length ∧ t = txLengthStep { s with txInflight := false }) ∨
       (s.txbuf.xfer = .data ∧ txDataStep { s with txInflight := false } = .ok t) ∨
       (s.txbuf.xfer = .checksum ∧ t = txChecksumStep { s with txInflight := false }) ∨
       (s.txbuf.xfer = .post ∧ t = txPostStep { s with txInflight := false }))) := by
  unfold execByteSent at h
  split at h
  · next he =>
    simp only [Bool.and_eq_true, Bool.not_eq_eq_eq_not, Bool.not_true] at he
    refine .inr ⟨he.1, he.2, ?_⟩
    have h := finish_next.1 h
    unfold txStep at h
    cases hx : s.txbuf.xfer <;> simp only [hx, Except.ok.injEq] at h <;> simp [h]
  · cases h; exact .inl rfl

theorem txDataStep_cases {s t : State} (h : txDataStep s = .ok t) :
    ∃ b, s.txbuf.data[s.txIdx.toNat]? = some b ∧
      t = txGoto (if s.txIdx + 1 = s.txbuf.length then .checksum else .data)
        { sendByte b s with txIdx := s.txIdx + 1 } := by
  unfold txDataStep bufRead at h
  cases hb : s.txbuf.data[s.txIdx.toNat]? with
  | none => simp [hb] at h
  | some b => simp only [hb, Except.ok.injEq] at h; exact ⟨b, rfl, h.symm⟩

theorem rxDataStep_cases {b : Byte} {s t : State} (h : rxDataStep b s = .ok t) :
    s.rxIdx.toNat < s.rxbuf.data.length ∧
      t = rxGoto (if s.rxIdx + 1 = s.rxbuf.length then .checksum else .data)
        { s with rxbuf := { s.rxbuf with data := s.rxbuf.data.set s.rxIdx.toNat b }, rxIdx := s.rxIdx + 1 } := by
  unfold rxDataStep at h
  cases hb : bufWrite s.rxbuf s.rxIdx.toNat b with
  | error f => simp [hb] at h
  | ok c =>
    obtain ⟨hl, rfl⟩ := bufWrite_cases hb
    simp only [hb, Except.ok.injEq] at h
    exact ⟨hl, h.symm⟩

/-- A received byte: one of R141 to R146. -/
theorem rxStep_cases {b : Byte} {s t : State} (h : rxStep b s = .ok t) :
    (s.rxBusy = false ∧ b ≠ s.cfg.start ∧ t = s) ∨
    (s.rxBusy = false ∧ b = s.cfg.start ∧ t = rxFrameStart s) ∨
    (s.rxBusy = true ∧ s.rxbuf.xfer = .type ∧ t = rxTypeStep b s) ∨
    (s.rxBusy = true ∧ s.rxbuf.xfer = .length ∧ t = rxLengthStep b s) ∨
    (s.rxBusy = true ∧ s.rxbuf.xfer = .data ∧ rxDataStep b s = .ok t) ∨
    (s.rxBusy = true ∧ s.rxbuf.xfer = .checksum ∧ t = rxChecksumStep b s) := by
  unfold rxStep at h
  cases hb : s.rxBusy
  · simp only [hb, Bool.false_eq_true, if_false] at h
    split at h
    · next he => cases h; exact .inr (.inl ⟨rfl, he, rfl⟩)
    · next he => cases h; exact .inl ⟨rfl, he, rfl⟩
  · simp only [hb, if_true] at h
    cases hx : s.rxbuf.xfer <;> simp only [hx, Except.ok.injEq, reduceCtorEq] at h <;> simp [h]

/-- A `byte_received` event: nothing, or the oldest byte taken and stepped. -/
theorem execByteReceived_cases {s t : State} (h : execByteReceived s = .next t) :
    t = s ∨ (s.evtGate = false ∧ ∃ b rest, s.rxq = b :: rest ∧ rxStep b { s with rxq := rest } = .ok t) := by
  unfold execByteReceived at h
  cases hg : s.evtGate
  · simp only [hg, Bool.false_eq_true, if_false] at h
    cases hq : s.rxq with
    | nil => simp only [hq] at h; cases h; exact .inl rfl
    | cons b rest => simp only [hq] at h; exact .inr ⟨rfl, b, rest, rfl, finish_next.1 h⟩
  · simp only [hg, if_true] at h; cases h; exact .inl rfl

/-- A step of the sequencer. -/
theorem pushStep_cases {s t : State} (h : pushStep s = .ok t) :
    t = s ∨
    (s.pushState = .waitTx1 ∧ s.txReady = true ∧
      t = { sendAccepted (statusMessage s.cfg.typeBusy) s with pushState := .waitBusyDone }) ∨
    (s.pushState = .waitBusyDone ∧ s.txReady = true ∧
      t = { s with evtGate := true, serPix := 0, serBit := 0, pushState := .render }) ∨
    (s.pushState = .render ∧ s.serPix = s.cfg.nLeds ∧ t = { s with pushState := .latch }) ∨
    (s.pushState = .render ∧ s.serPix ≠ s.cfg.nLeds ∧ ∃ p, s.pix[s.serPix]? = some p ∧
      t = advance (emitBit ((grb p).getLsbD (23 - s.serBit.val)) s)) ∨
    (s.pushState = .latch ∧ t = pushLatch s) ∨
    (s.pushState = .waitTx2 ∧ s.txReady = true ∧
      t = { sendAccepted (statusMessage s.cfg.typeReady) s with pushState := .idle, pushDone := true }) := by
  unfold pushStep at h
  cases hs : s.pushState <;> simp only [hs, Except.ok.injEq] at h
  · exact .inl h.symm
  · unfold pushWaitTx1 at h; split at h
    · next hr => subst h; simp [hr]
    · exact .inl h.symm
  · unfold pushWaitBusyDone at h; split at h
    · next hr => subst h; simp [hr]
    · exact .inl h.symm
  · unfold pushRender at h
    split at h
    · next hn => cases h; simp [hn]
    · next hn =>
      unfold pixRead at h
      cases hp : s.pix[s.serPix]? with
      | none => simp [hp] at h
      | some p => simp only [hp, Except.ok.injEq] at h; subst h; simp [hn]
  · subst h; simp
  · unfold pushWaitTx2 at h; split at h
    · next hr => subst h; simp [hr]
    · exact .inl h.symm

/-- What an instruction can do, by its row. -/
theorem exec_cases {i : Instr} {s t : State} (h : exec i s = .next t) :
    (∃ k : Command, execCommand k s = .next t) ∨
    (∃ m : Message, s.txReady = true ∧ t = sendAccepted m s) ∨
    (s.txReady = false ∧ t = sendRefused s) ∨
    t = { s with takeResult := some s.rxbuf, rxReady := false } ∨
    t = { s with statusResult := some (status s, errKindView s) } ∨
    execByteSent s = .next t ∨ execByteReceived s = .next t ∨
    (∃ b : Byte, t = if s.rxq.length < s.cfg.rxqDepth then { s with rxq := s.rxq ++ [b] } else s) := by
  cases i with
  | empty p => exact .inl ⟨.empty p, h⟩
  | test p => exact .inl ⟨.test p, h⟩
  | ctrlNone => exact .inl ⟨.ctrlNone, h⟩
  | selblk b e => exact .inl ⟨.selblk b e, h⟩
  | copy x d => exact .inl ⟨.copy x d, h⟩
  | clear e => exact .inl ⟨.clear e, h⟩
  | push e => exact .inl ⟨.push e, h⟩
  | ctrlReserved k a => exact .inl ⟨.ctrlReserved k a, h⟩
  | leddata g tr => exact .inl ⟨.leddata g tr, h⟩
  | busy p => exact .inl ⟨.busy p, h⟩
  | ready p => exact .inl ⟨.ready p, h⟩
  | typeUnassigned ty p => exact .inl ⟨.typeUnassigned ty p, h⟩
  | send m =>
    simp only [exec, execSend, Host.Outcome.next.injEq] at h
    cases hr : s.txReady <;> simp only [hr, Bool.false_eq_true, if_true, if_false] at h <;> subst h
    · exact .inr (.inr (.inl ⟨rfl, rfl⟩))
    · exact .inr (.inl ⟨m, rfl, rfl⟩)
  | sendDropped m =>
    simp only [exec, execSendDropped, Host.Outcome.next.injEq] at h
    cases hr : s.txReady <;> simp only [hr, reduceCtorEq, if_true, if_false] at h <;> subst h
    · exact .inr (.inr (.inl ⟨rfl, rfl⟩))
    · exact .inr (.inl ⟨m, rfl, rfl⟩)
  | takeReceived => cases h; simp
  | dispatch m => exact .inl ⟨_, (execDispatch_eq m s).symm.trans h⟩
  | readStatus => cases h; simp
  | byteSent => exact .inr (.inr (.inr (.inr (.inr (.inl h)))))
  | byteReceived => exact .inr (.inr (.inr (.inr (.inr (.inr (.inl h))))))
  | rxArrive b => cases h; exact .inr (.inr (.inr (.inr (.inr (.inr (.inr ⟨b, rfl⟩))))))

/-- The host's turn: nothing, a request that is none, or an instruction. -/
theorem hostTurn_cases {s t : State} (h : hostTurn s = .next t) :
    t = s ∨ (hostHeld s = false ∧ ∃ r q, s.hostq = r :: q ∧
      ((decodeRequest s.txReady s.takeResult r = none ∧ t = { s with hostq := q }) ∨
       ∃ i, decodeRequest s.txReady s.takeResult r = some i ∧ exec i { s with hostq := q } = .next t)) := by
  unfold hostTurn at h
  cases hh : hostHeld s
  · simp only [hh, Bool.false_eq_true, if_false] at h
    cases hq : s.hostq with
    | nil => simp only [hq] at h; cases h; exact .inl rfl
    | cons r q =>
      simp only [hq] at h
      refine .inr ⟨rfl, r, q, rfl, ?_⟩
      cases hd : decodeRequest s.txReady s.takeResult r with
      | none => simp only [hd] at h; cases h; exact .inl ⟨rfl, rfl⟩
      | some i => simp only [hd] at h; exact .inr ⟨i, rfl, h⟩
  · simp only [hh, if_true] at h; cases h; exact .inl rfl

/-- The host's turn issues its oldest request. -/
theorem hostTurn_issue {s : State} {r : HostRequest} {q : List HostRequest} {i : Instr} (hh : hostHeld s = false)
    (hq : s.hostq = r :: q) (hd : decodeRequest s.txReady s.takeResult r = some i) :
    hostTurn s = exec i { s with hostq := q } := by
  simp only [hostTurn, hh, hq, hd, Bool.false_eq_true, if_false]

/-- The step: nobody moves, or the agent of the next turn does. -/
theorem step_cases {s t : State} (h : step s = .next t) :
    s.cfg.ok = true ∧ ((s.sched = [] ∧ t = s) ∨
      ∃ u ts, s.sched = u :: ts ∧ takeTurn u { s with sched := ts } = .next t) := by
  unfold step at h
  split at h
  · next hc =>
    refine ⟨hc, ?_⟩
    unfold nextTurn at h
    cases hs : s.sched with
    | nil => simp only [hs] at h; cases h; exact .inl ⟨rfl, rfl⟩
    | cons u ts => simp only [hs] at h; exact .inr ⟨u, ts, rfl, h⟩
  · cases h

theorem step_turn {s : State} {u : Turn} {ts : List Turn} (hc : s.cfg.ok = true) (hs : s.sched = u :: ts) :
    step s = takeTurn u { s with sched := ts } := by
  simp [step, hc, nextTurn, hs]

end Sys2Proof.Machine
end

