-- ==== Sys2Proof/Laws/Run.lean ====
section
/-! SUPPORT. Runs of several steps, taken apart. -/

namespace Sys2Proof.Machine

/-- A run begins with its first step. -/
theorem run_succ {s t : State} (n : Nat) (h : step s = .next t) : core.run (n + 1) s = core.run n t := by
  have h' : core.step s = .next t := h
  simp only [Host.Core.run, h']

/-- A run that goes on past a state is the run from that state. -/
theorem run_add {s t : State} (n m : Nat) (h : core.run n s = .next t) : core.run (n + m) s = core.run m t := by
  induction n generalizing s with
  | zero => cases h; simp
  | succ n ih =>
    cases hs : step s with
    | next u => rw [run_succ _ hs] at h; rw [Nat.succ_add, run_succ _ hs]; exact ih h
    | fault r => have hs' : core.step s = .fault r := hs; simp only [Host.Core.run, hs'] at h; cases h
    | refused r => have hs' : core.step s = .refused r := hs; simp only [Host.Core.run, hs'] at h; cases h

/-- One turn of a run. -/
theorem run_turn {s t : State} {u : Turn} {ts : List Turn} (n : Nat) (hc : s.cfg.ok = true) (hs : s.sched = u :: ts)
    (ht : takeTurn u { s with sched := ts } = .next t) : core.run (n + 1) s = core.run n t :=
  run_succ n ((step_turn hc hs).trans ht)

end Sys2Proof.Machine
end

