-- ==== Sys2Proof/Tests/Slice0.lean ====
section
/-! SUPPORT. Tests. The smoke test of WellFormed; decoding of words written out from the spec's encodings; single
steps with results from 95_test_vectors.md; and for each obligation with hypotheses a state that meets them
(theorems witness_<Obligation>). -/

namespace Sys2Proof.Machine.Tests

/-- Four data bytes, three LEDs, the other parameters those of the reference configuration. -/
def tiny : Params := { Params.reference with maxData := 4, nLeds := 3 }

/-- Data capacity at its upper bound and more LEDs than an index byte reaches. -/
def wide : Params := { Params.reference with maxData := 255, nLeds := 257 }

/-- One data byte, one LED. -/
def least : Params := { Params.reference with maxData := 1, nLeds := 1 }

def idle : State := State.resetOf tiny

/-- A frame going out. -/
def sending (x : XferState) (len ix : Byte) : State :=
  { idle with
    txbuf := ⟨0x01, len, [7, 8, 9, 10], 5, x⟩, txIdx := ix, txReady := false, txBusy := true, txInflight := true }

/-- A frame coming in, with bytes waiting. -/
def receiving (x : XferState) (len ix : Byte) (q : List Byte) : State :=
  { idle with rxbuf := ⟨0x01, len, [7, 8, 9, 10], 5, x⟩, rxIdx := ix, rxBusy := true, rxq := q }

/-- A push running. -/
def pushing (p : PushState) : State := { idle with pushState := p, evtGate := gated p }

/-! ### Well-formedness: a well-formed term for each shape, and an ill-formed one that each check refuses -/

theorem test_wf_accepts :
    (Command.copy (some 1) [2, 3]).wf tiny = true ∧ (Command.leddata [⟨0, 1, 2, 3⟩] []).wf tiny = true ∧
    (Command.selblk none []).wf tiny = true ∧ (Command.ctrlReserved 0x7F [1]).wf tiny = true ∧
    (Command.typeUnassigned 0x7E [1, 2, 3, 4]).wf tiny = true := by decide

theorem test_wf_refuses_size :
    (Command.test [1, 2, 3, 4, 5]).wf tiny = false ∧ (Command.copy (some 1) [2, 3, 4]).wf tiny = false ∧
    (Command.clear [1, 2, 3, 4]).wf tiny = false ∧
    (Instr.leddata [⟨0, 0, 0, 0⟩] [1]).wf tiny = false := by decide

theorem test_wf_refuses_missing_operand :
    (Command.selblk none [1]).wf tiny = false ∧ (Command.copy none [1]).wf tiny = false := by decide

theorem test_wf_refuses_reserved_that_is_assigned :
    (Command.ctrlReserved 0x03 []).wf tiny = false ∧ (Command.typeUnassigned 0x05 []).wf tiny = false := by decide

theorem test_wf_refuses_trailing_group : (Command.leddata [] [1, 2, 3, 4]).wf tiny = false := by decide

theorem test_wf_refuses_missing_data :
    (Instr.send ⟨0x01, 3, [1, 2]⟩).wf tiny = false ∧ (Instr.dispatch ⟨0x01, 9, [1, 2, 3]⟩).wf tiny = false ∧
    (Instr.send ⟨0x01, 9, [1, 2, 3, 4]⟩).wf tiny = true := by decide

/-- One configuration that breaks each constraint of R9. -/
theorem test_parameters_refused :
    ({ tiny with typeTest := 0x00 } : Params).ok = false ∧ ({ tiny with start := 0x05 } : Params).ok = false ∧
    ({ tiny with subPush := 0x02 } : Params).ok = false ∧ ({ tiny with maxData := 0 } : Params).ok = false ∧
    ({ tiny with maxData := 256 } : Params).ok = false ∧ ({ tiny with nLeds := 0 } : Params).ok = false ∧
    ({ tiny with rxqDepth := 0 } : Params).ok = false ∧ ({ tiny with t1h := 350 } : Params).ok = false ∧
    ({ tiny with t1l := 800 } : Params).ok = false ∧ ({ tiny with tLatch := 49999 } : Params).ok = false := by decide

/-! ### Decoding: frames written out from R80, R84, R85, R87 to R91 and the vectors of 95_test_vectors.md -/

theorem test_decode_empty : decode Params.reference [0x7E, 0x00, 0x00, 0x00] = .ok (.empty [], []) := by decide
theorem test_decode_test :
    decode Params.reference [0x7E, 0x01, 0x02, 0x48, 0x49, 0x02] = .ok (.test [0x48, 0x49], []) := by decide
theorem test_decode_ctrlNone : decode Params.reference [0x7E, 0x02, 0x00, 0x02] = .ok (.ctrlNone, []) := by decide
theorem test_decode_selblk :
    decode Params.reference [0x7E, 0x02, 0x02, 0x00, 0x0F, 0x0F] = .ok (.selblk (some 0x0F) [], []) := by decide
theorem test_decode_selblk_short :
    decode Params.reference [0x7E, 0x02, 0x01, 0x00, 0x03] = .ok (.selblk none [], []) := by decide
theorem test_decode_copy :
    decode Params.reference [0x7E, 0x02, 0x04, 0x01, 0x13, 0x05, 0x25, 0x34] =
      .ok (.copy (some 0x13) [0x05, 0x25], []) := by decide
theorem test_decode_clear : decode Params.reference [0x7E, 0x02, 0x01, 0x02, 0x01] = .ok (.clear [], []) := by decide
theorem test_decode_clear_extra :
    decode Params.reference [0x7E, 0x02, 0x03, 0x02, 0xAA, 0xBB, 0x12] = .ok (.clear [0xAA, 0xBB], []) := by decide
theorem test_decode_push : decode Params.reference [0x7E, 0x02, 0x01, 0x03, 0x00] = .ok (.push [], []) := by decide
theorem test_decode_ctrlReserved :
    decode Params.reference [0x7E, 0x02, 0x01, 0x7F, 0x7C] = .ok (.ctrlReserved 0x7F [], []) := by decide
theorem test_decode_leddata :
    decode Params.reference [0x7E, 0x03, 0x08, 0x13, 0x0A, 0x14, 0x1E, 0x04, 0x01, 0x02, 0x03, 0x1C] =
      .ok (.leddata [⟨0x13, 10, 20, 30⟩, ⟨0x04, 1, 2, 3⟩] [], []) := by decide
/-- D-15: L = 7, three trailing bytes. -/
theorem test_decode_leddata_trailing :
    decodePacket Params.reference ⟨0x03, 7, [1, 2, 3, 4, 5, 6, 7]⟩ = .leddata [⟨1, 2, 3, 4⟩] [5, 6, 7] := by decide
theorem test_decode_busy : decode Params.reference [0x7E, 0x04, 0x00, 0x04, 0x99] = .ok (.busy [], [0x99]) := by decide
theorem test_decode_ready : decode Params.reference [0x7E, 0x05, 0x00, 0x05] = .ok (.ready [], []) := by decide
theorem test_decode_typeUnassigned :
    decode Params.reference [0x7E, 0x33, 0x01, 0x08, 0x3A] = .ok (.typeUnassigned 0x33 [0x08], []) := by decide

/-- S8 with four data bytes of room: LENGTH 6 is truncated, the fifth data byte is taken as CHECKSUM, the rest stays. -/
theorem test_decode_truncates :
    decodeFrame tiny [0x7E, 0x01, 0x06, 1, 2, 3, 4, 5, 6, 0x00] = .ok (⟨0x01, 4, [1, 2, 3, 4], 5⟩, [6, 0x00]) := by decide

theorem test_decode_rejects :
    decode Params.reference [] = .error .empty ∧ decode Params.reference [0x01] = .error .noStart ∧
    decode Params.reference [0x7E] = .error .noType ∧ decode Params.reference [0x7E, 0x02] = .error .noLength ∧
    decode Params.reference [0x7E, 0x02, 0x02, 0x00] = .error .shortData ∧
    decode Params.reference [0x7E, 0x02, 0x01, 0x00] = .error .noChecksum := by decide

theorem test_encode_copy :
    encode Params.reference (.copy (some 0x13) [0x05, 0x25]) =
      [0x7E, 0x02, 0x04, 0x01, 0x13, 0x05, 0x25, 0x34] := by decide
theorem test_encode_leddata :
    encode Params.reference (.leddata [⟨0x00, 0xFF, 0x00, 0x00⟩] []) =
      [0x7E, 0x03, 0x04, 0x00, 0xFF, 0x00, 0x00, 0xF8] := by decide

/-- The keys of the opcode table: `TYPE << 8 | data[0]`. -/
theorem test_table_words :
    decodeTableWord 16 0x0201 = some (.copy (some 0) [0, 0]) ∧ decodeTableWord 16 0x0203 = some (.push [0, 0, 0]) ∧
    decodeTableWord 16 0x0300 = some (.leddata [⟨0, 0, 0, 0⟩] []) ∧
    decodeTableWord 16 0x0600 = some (.typeUnassigned 0x06 [0, 0, 0, 0]) ∧
    decodeTableWord 32 0x34120200 = some (.selblk (some 0x12) [0x34, 0]) := by decide

/-- The step after `withFetchWord` runs that instruction, from reset and with a Push outstanding. -/
theorem test_withFetchWord :
    (match step (State.reset.withFetchWord 16 0x0400) with | .next t => t.okToSend | _ => true) = false ∧
    (match step ((pushing .render).withFetchWord 16 0x0203) with
      | .next t => decide (t.pushState = .waitTx1) | _ => false) = true := by decide

/-! ### Checksum, index resolution and wire word (95_test_vectors.md S1, 2.1, P1, O-1 to O-3) -/

theorem test_cks : cks 0x02 2 [0x00, 0x0F] = 0x0F ∧ cks 0x01 2 [0xAA, 0xAA] = 0x03 ∧
    cks 0xFF 32 (List.replicate 32 0) = 0xDF := by decide
theorem test_resolve : resolve 0x000F 0x13 = 3 ∧ resolve 0x000F 0x25 = 5 ∧ resolve 0x0005 0x07 = 5 := by decide
theorem test_grb : grb ⟨255, 0, 0⟩ = 0x00FF00 ∧ grb ⟨0x12, 0x34, 0x56⟩ = 0x341256 ∧
    (pixelBits ⟨0, 0, 1⟩)[23]? = some true := by decide

/-! ### Single steps -/

/-- What a test looks at in the outcome. -/
def seen {α : Type} (f : State → α) : Host.Outcome State Fault Refusal → Option α
  | .next t => some (f t)
  | .fault _ => none
  | .refused _ => none

/-- T1. -/
theorem test_send : seen (fun t => (t.wireTx, t.txbuf.xfer, status t)) (exec (.send ⟨0, 0, []⟩) State.reset) =
    some ([0x7E], .type, 0x82) := by decide
/-- T5: clamped. -/
theorem test_send_clamps :
    seen (fun t => (t.txbuf.length, t.txbuf.data, t.txbuf.checksum)) (exec (.send ⟨1, 6, [1, 2, 3, 4, 5, 6]⟩) idle) =
      some (4, [1, 2, 3, 4], 1) := by decide
/-- T3. -/
theorem test_send_dropped :
    seen (fun t => (t.wireTx, status t, errKindView t)) (exec (.sendDropped ⟨1, 1, [0x55]⟩) (sending .type 0 0)) =
      some ([], 0x86, 2) := by decide
theorem test_byteSent_data :
    seen (fun t => (t.wireTx, t.txIdx, t.txbuf.xfer)) (exec .byteSent (sending .data 4 3)) =
      some ([10], 4, .checksum) := by decide
/-- T2's last step. -/
theorem test_byteSent_post :
    seen (fun t => (status t, t.txInflight, t.txbuf.xfer)) (exec .byteSent (sending .post 4 4)) =
      some (0x81, false, .done) := by decide
/-- V2. -/
theorem test_byteReceived_start :
    seen (fun t => (status t, t.rxbuf.xfer, t.rxq)) (exec .byteReceived { State.reset with rxq := [0x7E] }) =
      some (0x91, .type, []) := by decide
/-- A checksum that does not verify: V4's status. -/
theorem test_byteReceived_mismatch :
    seen (fun t => (status t, errKindView t, t.rxbuf.xfer))
      (exec .byteReceived { State.reset with
        rxbuf := ⟨0, 0, List.replicate 32 0, 0, .checksum⟩, rxBusy := true, rxq := [0x01] }) =
      some (0xA9, 1, .done) := by decide
/-- O-6: the second byte is lost while the gate is closed. -/
theorem test_rxArrive :
    seen (fun t => t.rxq) (exec (.rxArrive 0x01) { pushing .render with rxq := [0x7E] }) = some [0x7E] := by decide
/-- V9. -/
theorem test_takeReceived :
    seen (fun t => (t.takeResult.map fun p => (p.type, p.length, p.xfer), t.rxReady, t.rxBusy))
      (exec .takeReceived (receiving .data 4 1 [])) = some (some (0x01, 4, .data), false, true) := by decide
theorem test_readStatus :
    seen (fun t => t.statusResult) (exec .readStatus State.reset) = some (some (0x81, 0)) := by decide
/-- D-1. -/
theorem test_dispatch_busy :
    seen (fun t => status t) (exec (.dispatch ⟨0x04, 0, []⟩) State.reset) = some 0x01 := by decide
/-- D-2. -/
theorem test_ready : seen (fun t => t.okToSend) (exec (.ready []) { idle with okToSend := false }) = some true := by decide
/-- D-17. -/
theorem test_refused_after_fatal :
    exec (.clear []) { idle with cmdFault := true } = .next { idle with cmdFault := true } := by rfl
/-- D-6. -/
theorem test_selblk : seen (fun t => t.activeBlock) (exec (.selblk (some 0xFF) []) State.reset) = some 0x00FF := by decide
/-- D-13, with three LEDs: index 3 is the first out of range. -/
theorem test_copy_stops :
    seen (fun t => (t.pix, t.cmdFault, t.errKind))
      (exec (.copy (some 2) [1, 3, 0]) { idle with activeBlock := 0xFF, pix := [⟨1, 1, 1⟩, ⟨2, 2, 2⟩, ⟨3, 3, 3⟩] }) =
      some ([⟨1, 1, 1⟩, ⟨3, 3, 3⟩, ⟨3, 3, 3⟩], true, .indexOutOfRange) := by decide
/-- D-16. -/
theorem test_leddata_later_wins :
    seen (fun t => (t.pix, t.cmdFault))
      (exec (.leddata [⟨2, 1, 1, 1⟩, ⟨2, 5, 5, 5⟩] []) { idle with activeBlock := 0xFF }) =
      some ([⟨0, 0, 0⟩, ⟨0, 0, 0⟩, ⟨5, 5, 5⟩], false) := by decide
/-- S3. -/
theorem test_clear :
    seen (fun t => t.pix) (exec (.clear []) { idle with pix := [⟨1, 2, 3⟩, ⟨0, 0, 0⟩, ⟨9, 9, 9⟩] }) =
      some [⟨0, 0, 0⟩, ⟨0, 0, 0⟩, ⟨0, 0, 0⟩] := by decide
theorem test_push :
    seen (fun t => (t.pushState, t.pushDone)) (exec (.push []) { idle with pushDone := true }) =
      some (.waitTx1, false) := by decide
/-- D-3, D-4, D-18. -/
theorem test_no_effect :
    exec (.test [0x48, 0x49]) idle = .next idle ∧ exec (.empty []) idle = .next idle ∧
    exec (.typeUnassigned 0x33 []) idle = .next idle ∧ exec .ctrlNone idle = .next idle ∧
    exec (.ctrlReserved 0x7F []) idle = .next idle := ⟨rfl, rfl, rfl, rfl, rfl⟩
/-- O-7's first bit that is 1: the seventeenth. -/
theorem test_render :
    (match pushStep { pushing .render with serBit := 16, pix := [⟨0, 0, 0x80⟩, ⟨0, 0, 0⟩, ⟨0, 0, 0⟩] } with
      | .ok t => (t.ledOut, t.serBit, t.serPix) | .error _ => ([], 0, 0)) = ([.bit true], 17, 0) := by decide
theorem test_latch :
    (match pushStep (pushing .latch) with
      | .ok t => (t.ledOut, t.evtGate, t.pushState) | .error _ => ([], true, .idle)) =
      ([.latch], false, .waitTx2) := by decide

/-! ### Witnesses: for each obligation with hypotheses, a state and operands that meet them together -/

theorem witness_valid_parameters :
    Params.reference.Valid ∧ tiny.Valid ∧ wide.Valid ∧ least.Valid :=
  ⟨(Params.ok_iff _).1 (by decide), (Params.ok_iff _).1 (by decide), (Params.ok_iff _).1 (by decide),
    (Params.ok_iff _).1 (by decide)⟩

theorem inv_idle : Inv idle := by constructor <;> first | exact (Params.ok_iff _).1 (by decide) | decide
theorem inv_sending : Inv (sending .data 4 3) := by
  constructor <;> first | exact (Params.ok_iff _).1 (by decide) | decide
theorem inv_receiving : Inv (receiving .data 4 3 [0x7E]) := by
  constructor <;> first | exact (Params.ok_iff _).1 (by decide) | decide
theorem inv_rendering : Inv (pushing .render) := by
  constructor <;> first | exact (Params.ok_iff _).1 (by decide) | decide

theorem witness_ResetTurnRestoresResetState :
    (sending .data 4 3).cfg.ok = true ∧ ({ sending .data 4 3 with sched := [.reset] } : State).sched = .reset :: [] := by
  decide

/-- A request, each event, and the sequencer, at the head of the schedule. -/
theorem witness_StepRunsDecodedInstruction :
    (let s : State :=
        { idle with sched := [.host], hostq := [.dispatchTaken], takeResult := some (resetPacket tiny) };
      s.cfg.ok = true ∧ s.sched = .host :: [] ∧ hostHeld s = false ∧ s.hostq = .dispatchTaken :: [] ∧
      decodeRequest s.txReady s.takeResult .dispatchTaken = some (.dispatch ⟨0, 0, [0, 0, 0, 0]⟩)) ∧
    (let s : State := { idle with sched := [.host], hostq := [.dispatchTaken] };
      s.cfg.ok = true ∧ hostHeld s = false ∧ s.takeResult = none ∧ s.hostq = .dispatchTaken :: []) ∧
    (let s : State := { idle with sched := [.host], hostq := [.send ⟨0, 0, []⟩], txReady := false };
      s.cfg.ok = true ∧ hostHeld s = false ∧
      decodeRequest s.txReady s.takeResult (.send ⟨0, 0, []⟩) = some (.sendDropped ⟨0, 0, []⟩)) ∧
    (∀ u : Turn, u = .byteSent ∨ u = .byteReceived ∨ u = .rxArrive 0x7E ∨ u = .sequencer →
      ({ idle with sched := [u] } : State).cfg.ok = true ∧ ({ idle with sched := [u] } : State).sched = u :: []) :=
  ⟨by decide, by decide, by decide, fun _ _ => ⟨(by decide : idle.cfg.ok = true), rfl⟩⟩

theorem witness_HeldHostIssuesNothing :
    let s : State := { pushing .waitTx1 with sched := [.host] }
    s.cfg.ok = true ∧ s.sched = .host :: [] ∧ s.pushState ≠ .idle ∧ s.pushDone = false := by decide

theorem witness_DispatchRunsDecodedRow :
    idle.cmdFault = false ∧ idle.pix.length = idle.cfg.nLeds ∧
    ({ idle with cmdFault := true } : State).cmdFault = true := by decide

/-- A command of exactly `MAX_DATA` bytes, with room for one byte too. -/
theorem witness_DecodeOfEncodedCommand :
    tiny.Valid ∧ (Command.leddata [⟨0, 1, 2, 3⟩] []).wf tiny = true ∧
    least.Valid ∧ (Command.test [0x7E]).wf least = true :=
  ⟨witness_valid_parameters.2.1, by decide, witness_valid_parameters.2.2.2, by decide⟩

theorem witness_ChecksumDetectsOneChange :
    1 < ([1, 2] : List Byte).length ∧ cks 0x01 2 (([1, 2] : List Byte).set 1 2) = cks 0x01 2 [1, 2] ∧
    ([1, 2] : List Byte).Perm [2, 1] := by decide

/-- No data, and a length that is clamped. -/
theorem witness_SendAcceptedStartsFrame :
    idle.txReady = true ∧ Message.wf idle.cfg ⟨0x7E, 0, []⟩ = true ∧
    Message.wf idle.cfg ⟨0x01, 255, [1, 2, 3, 4]⟩ = true ∧ idle.txbuf.data.length = idle.cfg.maxData := by decide

theorem witness_SendWhileBusyIsDropped : (sending .post 0 0).txReady = false := by decide

theorem witness_ByteSentSendsTypeAndLength :
    (∀ x, x = XferState.type ∨ x = .length → ∀ l, l = (0 : Byte) ∨ l = 4 →
      (sending x l 0).txInflight = true ∧ (sending x l 0).evtGate = false ∧ (sending x l 0).txbuf.xfer = x ∧
      (sending x l 0).txbuf.length = l) := fun _ _ _ _ => ⟨rfl, rfl, rfl, rfl⟩

/-- The last data byte, and one before it. -/
theorem witness_ByteSentSendsDataByte :
    (sending .data 4 3).txInflight = true ∧ (sending .data 4 3).evtGate = false ∧
    (sending .data 4 3).txbuf.data[(sending .data 4 3).txIdx.toNat]? = some 10 ∧
    (sending .data 4 3).txIdx + 1 = (sending .data 4 3).txbuf.length ∧
    (sending .data 4 0).txbuf.data[(sending .data 4 0).txIdx.toNat]? = some 7 ∧
    (sending .data 4 0).txIdx + 1 ≠ (sending .data 4 0).txbuf.length := by decide

theorem witness_ByteSentEndsFrame :
    (∀ x, x = XferState.checksum ∨ x = .post →
      (sending x 4 4).txInflight = true ∧ (sending x 4 4).evtGate = false ∧ (sending x 4 4).txbuf.xfer = x) :=
  fun _ _ => ⟨rfl, rfl, rfl⟩

theorem witness_EventsHeldOrAbsentDoNothing :
    (pushing .latch).evtGate = true ∧ idle.txInflight = false ∧ idle.rxq = [] ∧
    (sending .done 0 0).txInflight = true ∧ (sending .done 0 0).evtGate = false ∧
    (sending .done 0 0).txbuf.xfer = .done := by decide

theorem witness_SendPutsWholeFrameOnWire :
    let m : Message := ⟨0x7E, 255, [1, 2, 3, 4]⟩
    let s : State := { idle with
      hostq := [.send m], sched := .host :: (List.replicate (min m.length.toNat idle.cfg.maxData + 4) .byteSent ++ []) }
    Inv s ∧ s.pushState = .idle ∧ s.txReady = true ∧ m.wf s.cfg = true ∧ s.hostq = .send m :: [] ∧
    s.sched = .host :: (List.replicate (min m.length.toNat s.cfg.maxData + 4) .byteSent ++ []) := by
  refine ⟨?_, by decide, by decide, by decide, by decide, by decide⟩
  constructor <;> first | exact (Params.ok_iff _).1 (by decide) | decide

/-- Room for a byte, and none. -/
theorem witness_ArrivingByteIsQueuedOrLost :
    idle.rxq.length < idle.cfg.rxqDepth ∧
    ({ idle with rxq := [1] } : State).cfg.rxqDepth ≤ ({ idle with rxq := [1] } : State).rxq.length := by decide

theorem witness_IdleByteStartsFrameOrIsDiscarded :
    (∀ b, b = (0x7E : Byte) ∨ b = 0x7F →
      ({ idle with rxq := [b] } : State).evtGate = false ∧ ({ idle with rxq := [b] } : State).rxq = b :: [] ∧
      ({ idle with rxq := [b] } : State).rxBusy = false) ∧ (0x7F : Byte) ≠ tiny.start ∧ (0x7E : Byte) = tiny.start :=
  ⟨fun _ _ => ⟨rfl, rfl, rfl⟩, by decide, by decide⟩

/-- The TYPE byte START; LENGTH bytes 0, `MAX_DATA` and 255. -/
theorem witness_HeaderBytesAreStored :
    (∀ x, x = XferState.type ∨ x = .length → ∀ b, b = (0x7E : Byte) ∨ b = 0 ∨ b = 4 ∨ b = 255 →
      (receiving x 0 0 [b]).evtGate = false ∧ (receiving x 0 0 [b]).rxq = b :: [] ∧
      (receiving x 0 0 [b]).rxBusy = true ∧ (receiving x 0 0 [b]).rxbuf.xfer = x ∧
      (receiving x 0 0 [b]).rxbuf.data.length = (receiving x 0 0 [b]).cfg.maxData) ∧ tiny.maxData ≤ 255 :=
  ⟨fun _ _ _ _ => ⟨rfl, rfl, rfl, rfl, rfl⟩, by decide⟩

theorem witness_DataByteIsStored :
    let s := receiving .data 4 3 [0x7E]
    s.evtGate = false ∧ s.rxq = 0x7E :: [] ∧ s.rxBusy = true ∧ s.rxbuf.xfer = .data ∧
    s.rxIdx.toNat < s.rxbuf.data.length ∧ s.rxIdx + 1 = s.rxbuf.length := by decide

/-- A checksum that verifies, and one that does not. -/
theorem witness_ChecksumByteCompletesFrame :
    let s := receiving .checksum 1 1 [0x07]
    s.evtGate = false ∧ s.rxq = 0x07 :: [] ∧ s.rxBusy = true ∧ s.rxbuf.xfer = .checksum ∧
    (0x07 : Byte) = cks s.rxbuf.type s.rxbuf.length (s.rxbuf.data.take s.rxbuf.length.toNat) ∧
    (0x06 : Byte) ≠ cks s.rxbuf.type s.rxbuf.length (s.rxbuf.data.take s.rxbuf.length.toNat) := by decide

/-- A frame that is truncated. -/
theorem witness_ReceivedFrameIsStored :
    let s : State := { idle with sched := receiveTurns (tiny.start :: 0x01 :: 255 :: ([1, 2, 3, 4] ++ [5])) ++ [] }
    Inv s ∧ s.rxBusy = false ∧ s.evtGate = false ∧ s.rxq = [] ∧
    ([1, 2, 3, 4] : List Byte).length = min (255 : Byte).toNat s.cfg.maxData ∧
    s.sched = receiveTurns (s.cfg.start :: 0x01 :: 255 :: ([1, 2, 3, 4] ++ [5])) ++ [] := by
  refine ⟨?_, by decide, by decide, by decide, by decide, by decide⟩
  constructor <;> first | exact (Params.ok_iff _).1 (by decide) | decide

/-- Both events enabled. -/
theorem witness_ByteEventsCommute :
    let s : State := { sending .data 4 3 with
      rxbuf := ⟨0x01, 4, [7, 8, 9, 10], 5, .data⟩, rxIdx := 3, rxBusy := true, rxq := [0x7E] }
    Inv s ∧ s.txInflight = true ∧ s.rxq = [0x7E] ∧ s.evtGate = false := by
  refine ⟨?_, by decide, by decide, by decide⟩
  constructor <;> first | exact (Params.ok_iff _).1 (by decide) | decide

/-- HandshakePacketsWriteOkToSend, SelectBlockWritesMask, ClearBlacksEveryPixel, PushStartsSequencer. -/
theorem witness_dispatcher_admits : idle.cmdFault = false := by decide

/-- The last index in range, the first out of range, as source, destination and group. -/
theorem witness_CopyWritesDestinations_LedDataWritesGroups :
    let s : State := { idle with activeBlock := 0xFF }
    s.cmdFault = false ∧ s.pix.length = s.cfg.nLeds ∧ index s 2 < s.cfg.nLeds ∧ s.cfg.nLeds ≤ index s 3 ∧
    (∀ d ∈ [0, 2], index s d < s.cfg.nLeds) ∧
    (∀ g ∈ ([⟨2, 1, 1, 1⟩] : List Group), index s g.index < s.cfg.nLeds) := by decide

/-- Both alternatives: 257 LEDs, and a mask below the number of LEDs. -/
theorem witness_SmallMaskNeverFaults :
    Inv idle ∧ idle.cmdFault = false ∧ (idle.activeBlock &&& 0x00FF).toNat < idle.cfg.nLeds ∧
    Inv (State.resetOf wide) ∧ (State.resetOf wide).cmdFault = false ∧ 256 ≤ (State.resetOf wide).cfg.nLeds := by
  refine ⟨inv_idle, by decide, by decide, ?_, rfl, by decide⟩
  have h := witness_valid_parameters.2.2.1
  generalize wide = c at h
  constructor <;> simp [State.resetOf, resetPacket, gated, txActive, rxActive, afterBusy, h]

theorem witness_SequencerSendsBusyAndReady :
    (pushing .waitTx1).txReady = true ∧ (pushing .waitTx1).pushState = .waitTx1 ∧
    (pushing .waitTx2).txReady = true ∧ (pushing .waitTx2).pushState = .waitTx2 := by decide

theorem witness_SequencerGatesRenderAndLatch :
    (pushing .waitBusyDone).pushState = .waitBusyDone ∧ (pushing .waitBusyDone).txReady = true ∧
    ({ pushing .render with serPix := 3 } : State).pushState = .render ∧
    ({ pushing .render with serPix := 3 } : State).serPix = tiny.nLeds ∧
    (pushing .latch).pushState = .latch ∧ (pushing .latch).ledOpen = false := by decide

/-- The last pixel; bit 0, the last bit but one and the last. -/
theorem witness_RenderEmitsNextBit :
    (∀ k : Fin 24, k = 0 ∨ k = 22 ∨ k = 23 →
      let s : State := { pushing .render with serPix := 2, serBit := k }
      s.pushState = .render ∧ s.serPix < s.cfg.nLeds ∧ s.pix[s.serPix]? = some ⟨0, 0, 0⟩ ∧ s.ledOpen = false) ∧
    (22 : Fin 24).val < 23 ∧ (23 : Fin 24).val = 23 :=
  ⟨fun _ _ => ⟨rfl, (by decide : 2 < tiny.nLeds), rfl, rfl⟩, by decide, by decide⟩

theorem witness_MistunedOutputIsOpen :
    let s : State := { pushing .render with ledOpen := true, serPix := 2, serBit := 23 }
    let l : State := { pushing .latch with ledOpen := true, sched := [.retune 5 6] }
    let u : State := { idle with tuned := false, sched := [.clockChange 1] }
    s.ledOpen = true ∧ s.pushState = .render ∧ s.serPix < s.cfg.nLeds ∧ s.pix[s.serPix]? = some ⟨0, 0, 0⟩ ∧
    l.ledOpen = true ∧ l.pushState = .latch ∧ l.cfg.ok = true ∧ l.sched = .retune 5 6 :: [] ∧
    l.pushState ≠ .idle ∧ l.sched.head? ≠ some .reset ∧ l.sched.head? ≠ some .host ∧
    u.tuned = false ∧ u.cmdFault = false ∧ u.sched = .clockChange 1 :: [] ∧ 1 ≠ u.fClk ∧
    u.cfg.ok = true := by decide

theorem witness_MistunedOutputIsOpen_steps :
    (∃ t, exec (.push []) { idle with tuned := false } = .next t) ∧
    (∃ t, step { pushing .latch with ledOpen := true, sched := [.retune 5 6] } = .next t) := ⟨⟨_, rfl⟩, ⟨_, rfl⟩⟩

/-- R292: changed away and back without a retune the settings are stale; a push made then, or met by a change, stays
open when a retune comes in its middle; the push after it is not. -/
theorem test_clock :
    (changeClock 0 (changeClock 1 idle)).fClk = 0 ∧ (changeClock 0 (changeClock 1 idle)).tuned = false ∧
    (changeClock 0 idle).tuned = true ∧ (changeClock 0 idle).ledOpen = false ∧
    seen (fun t => (retune 5 6 t).ledOpen) (exec (.push []) (changeClock 1 idle)) = some true ∧
    (retune 5 6 (changeClock 1 (pushing .render))).ledOpen = true ∧
    (retune 5 6 (changeClock 1 idle)).bitclkDiv = 5 ∧ (retune 5 6 (changeClock 1 idle)).calInterval = 6 ∧
    seen (fun t => t.ledOpen) (exec (.push []) (retune 5 6 (changeClock 1 idle))) = some false := by decide

theorem witness_SequencerWaitsForTransport :
    idle.pushState = .idle ∧
    (∀ p, p = PushState.waitTx1 ∨ p = .waitBusyDone ∨ p = .waitTx2 →
      ({ pushing p with txReady := false } : State).txReady = false ∧
      ({ pushing p with txReady := false } : State).pushState = p) := ⟨by decide, fun _ _ => ⟨rfl, rfl⟩⟩

/-- ResolveIsAndWithMask, WireWordIsGreenRedBlue, BitStreamIndexing: the first and the last position. -/
theorem witness_bit_positions :
    0 < 8 ∧ 7 < 8 ∧ 8 ≤ 8 ∧ 0 < 24 * ([⟨0, 0, 0⟩] : List Pixel).length ∧ 23 < 24 * ([⟨0, 0, 0⟩] : List Pixel).length := by
  decide

theorem witness_PushRunsToCompletion :
    let m : Message := ⟨0x02, 1, [0x03]⟩
    let s : State := { idle with hostq := [.dispatch m], sched := .host :: (pushTurns tiny.nLeds ++ []) }
    Inv s ∧ s.pushState = .idle ∧ s.txReady = true ∧ s.cmdFault = false ∧ s.tuned = true ∧
    decodePacket s.cfg m = .push [] ∧ s.hostq = .dispatch m :: [] ∧
    s.sched = .host :: (pushTurns s.cfg.nLeds ++ []) := by
  refine ⟨?_, by decide, by decide, by decide, by decide, by decide, rfl, rfl⟩
  constructor <;> first | exact (Params.ok_iff _).1 (by decide) | decide

/-- A realisation at the edge of the tolerance: one black pixel, every bit a 0 of 350 + 150 and 800 + 150 ns. -/
theorem witness_GatedIntervalIsBounded :
    let s : State := State.resetOf least
    s.pix.length = s.cfg.nLeds ∧
    List.Forall₂ (fun b w => realises s.cfg (.bit b) w = true) (bitStream s.pix)
      (List.replicate 24 [(.high, 500), (.low, 950)]) ∧
    realises s.cfg .latch [(.low, 50000)] = true := by
  refine ⟨by decide, ?_, by decide⟩
  rw [show bitStream (State.resetOf least).pix = List.replicate 24 false by decide]
  simp only [List.replicate]
  repeat' first | exact List.Forall₂.nil | refine List.Forall₂.cons (by decide) ?_

/-- EveryInstructionCompletes, StepKeepsInvariant, StepNeverStops, HistoriesOnlyGrow, ErrKindFollowsRaise,
ParametersAreFixed: a state of the invariant from which a step leads on. -/
theorem witness_step_from_invariant :
    Inv { sending .data 4 3 with sched := [.byteSent] } ∧
    (∃ t, step { sending .data 4 3 with sched := [.byteSent] } = .next t) ∧
    ({ sending .data 4 3 with sched := [.byteSent] } : State).sched.head? ≠ some .reset := by
  refine ⟨?_, ⟨_, rfl⟩, by decide⟩
  constructor <;> first | exact (Params.ok_iff _).1 (by decide) | decide

/-- A host turn whose request is no dispatch. -/
theorem witness_OnlyDispatchWritesPixels :
    let s : State := { idle with sched := [.host], hostq := [.takeReceived] }
    (∃ t, step s = .next t) ∧ s.sched.head? ≠ some .reset ∧ (∀ m : Message, s.hostq.head? ≠ some (.dispatch m)) ∧
    s.hostq.head? ≠ some .dispatchTaken := ⟨⟨_, rfl⟩, by decide, fun _ h => by simp at h, by decide⟩

/-- An LED_DATA packet, and the first index that is out of reach. -/
theorem witness_HighPixelsAreOutOfReach :
    (∃ t, exec (.dispatch ⟨0x03, 4, [255, 1, 2, 3]⟩) idle = .next t) ∧ 256 ≤ 256 ∧
    (∀ e, decodePacket idle.cfg ⟨0x03, 4, [255, 1, 2, 3]⟩ ≠ .clear e) :=
  ⟨⟨_, rfl⟩, by decide, fun e h => by
    rw [show decodePacket idle.cfg ⟨0x03, 4, [255, 1, 2, 3]⟩ = .leddata [⟨255, 1, 2, 3⟩] [] by decide] at h
    cases h⟩

theorem witness_BusyTransmitterOwnsItsBuffer :
    let s : State := { sending .data 4 3 with sched := [.host], hostq := [.send ⟨0, 0, []⟩] }
    Inv s ∧ (∃ t, step s = .next t) ∧ s.txBusy = true ∧ s.sched.head? ≠ some .byteSent ∧
    s.sched.head? ≠ some .reset := by
  refine ⟨?_, ⟨_, rfl⟩, by decide, by decide, by decide⟩
  constructor <;> first | exact (Params.ok_iff _).1 (by decide) | decide

theorem witness_CmdFaultIsSticky :
    let s : State := { idle with cmdFault := true, sched := [.host], hostq := [.dispatch ⟨0x05, 0, []⟩] }
    (∃ t, step s = .next t) ∧ s.sched.head? ≠ some .reset ∧ s.cmdFault = true := ⟨⟨_, rfl⟩, by decide, by decide⟩

/-- Each event of R28's table. -/
theorem witness_FlagsHaveTheirWriters :
    resets { idle with sched := [.reset] } ∧ postStep { sending .post 4 4 with sched := [.byteSent] } ∧
    acceptsSend { idle with sched := [.host], hostq := [.send ⟨0, 0, []⟩] } ∧
    acceptsSend { pushing .waitTx1 with sched := [.sequencer] } ∧
    dropsSend { sending .type 0 0 with sched := [.host], hostq := [.send ⟨0, 0, []⟩] } ∧
    frameStart { idle with sched := [.byteReceived], rxq := [0x7E] } ∧
    checksumStep { receiving .checksum 1 1 [0x06] with sched := [.byteReceived] } 0x06 ∧
    (0x06 : Byte) ≠ rxSum (receiving .checksum 1 1 [0x06]) ∧
    issues { idle with sched := [.host], hostq := [.takeReceived] } .takeReceived :=
  ⟨rfl, ⟨rfl, rfl, rfl, rfl⟩, ⟨rfl, .inl ⟨⟨0, 0, []⟩, rfl, rfl, rfl⟩⟩, ⟨rfl, .inr ⟨rfl, .inl rfl⟩⟩,
    ⟨rfl, ⟨0, 0, []⟩, rfl, rfl, rfl⟩, ⟨rfl, rfl, rfl, rfl⟩, ⟨rfl, rfl, rfl, rfl, rfl⟩, by decide, ⟨rfl, rfl, rfl⟩⟩

theorem witness_OkToSendIsAdvisory :
    Instr.send ⟨0, 0, []⟩ ≠ .readStatus ∧ (∃ t, exec (.send ⟨0, 0, []⟩) idle = .next t) ∧
    (∃ t, pushStep (pushing .waitTx1) = .ok t) ∧
    (let s : State := { idle with sched := [.host], hostq := [.takeReceived] };
      (s.sched.head? ≠ some .host ∨ s.hostq.head? ≠ some .readStatus) ∧ ∃ t, step s = .next t) :=
  ⟨by decide, ⟨_, rfl⟩, ⟨_, rfl⟩, by decide, ⟨_, rfl⟩⟩

/-- The gate closed, and a byte arriving. -/
theorem witness_GateShieldsRender :
    let s : State := { pushing .render with sched := [.rxArrive 0x7E] }
    Inv s ∧ s.evtGate = true ∧ (∃ t, step s = .next t) ∧ ∃ b, s.sched.head? = some (.rxArrive b) := by
  refine ⟨?_, by decide, ⟨_, rfl⟩, ⟨0x7E, rfl⟩⟩
  constructor <;> first | exact (Params.ok_iff _).1 (by decide) | decide

end Sys2Proof.Machine.Tests
end

section
/-! SUPPORT. The proofs about the state: the values after reset (R51), and the writers of the transport flags and of the
gate (R28, R42). -/

namespace Sys2Proof.Machine

/-! ### Reset -/

theorem resetPacket_data_getElem? (c : Params) {i : Nat} (h : i < c.maxData) : (resetPacket c).data[i]? = some 0 :=
  List.getElem?_replicate_of_lt h

theorem resetPacket_data_length (c : Params) : (resetPacket c).data.length = c.maxData := List.length_replicate

theorem resetOf_pix_getElem? (c : Params) {i : Nat} (h : i < c.nLeds) :
    (State.resetOf c).pix[i]? = some Pixel.black :=
  List.getElem?_replicate_of_lt h

theorem resetOf_pix_length (c : Params) : (State.resetOf c).pix.length = c.nLeds := List.length_replicate

/-- Settles O1: every field of `State.resetOf` holds its value of R51 by definition, the three lists by their length and
their entries. -/
theorem resetLeavesSpecValues : Obligations.ResetLeavesSpecValues := fun c =>
  have data := resetPacket_data_length c
  have bytes : ∀ i, i < c.maxData → (resetPacket c).data[i]? = some 0x00 := fun _ => resetPacket_data_getElem? c
  have pixels : ∀ i, i < c.nLeds → (State.resetOf c).pix[i]? = some ⟨0, 0, 0⟩ := fun _ => resetOf_pix_getElem? c
  ⟨rfl, rfl, rfl, rfl, data, bytes, rfl, rfl, rfl, rfl, rfl, data, bytes, rfl, rfl, rfl, rfl, rfl, rfl, rfl, rfl, rfl,
    rfl, rfl, resetOf_pix_length c, pixels, rfl, rfl, rfl, rfl, rfl, rfl, rfl, rfl, rfl, rfl⟩

/-! ### What an enabled request or event runs -/

theorem execSend_accepted (m : Message) {s : State} (h : s.txReady = true) :
    execSend m s = .next (sendAccepted m s) := congrArg _ (if_pos h)

theorem execSendDropped_dropped (m : Message) {s : State} (h : s.txReady = false) :
    execSendDropped m s = .next (sendRefused s) := congrArg _ (if_pos h)

theorem execByteSent_enabled {s : State} (hi : s.txInflight = true) (hg : s.evtGate = false) :
    execByteSent s = finish (txStep { s with txInflight := false }) := if_pos (by simp [hi, hg])

theorem execByteReceived_enabled {s : State} {b : Byte} {q : List Byte} (hg : s.evtGate = false)
    (hq : s.rxq = b :: q) : execByteReceived s = finish (rxStep b { s with rxq := q }) := by
  rw [execByteReceived, if_neg (by simp [hg])]
  simp only [hq]

/-- Post is the TX machine's last transition (R119). -/
theorem txStep_post {s : State} (h : s.txbuf.xfer = .post) : txStep s = .ok (txPostStep s) := by
  simp only [txStep, h]

/-! ### The next step, when its turn is known -/

/-- The step is the turn at the head of `sched`. -/
theorem step_takes_head {s t : State} {u : Turn} (h : step s = .next t) (hu : s.sched.head? = some u) :
    takeTurn u { s with sched := s.sched.tail } = .next t := by
  obtain ⟨-, ⟨hs, -⟩ | ⟨v, ts, hs, h⟩⟩ := step_cases h
  · simp [hs] at hu
  · obtain rfl : v = u := by simpa [hs] using hu
    simpa [hs] using h

/-- The step of a host that issues a request runs the request's instruction. -/
theorem step_of_issues {s t : State} {r : HostRequest} {i : Instr} (h : step s = .next t) (hr : issues s r)
    (hd : decodeRequest s.txReady s.takeResult r = some i) :
    exec i { s with sched := s.sched.tail, hostq := s.hostq.tail } = .next t := by
  obtain ⟨hu, hh, hq⟩ := hr
  have hq : s.hostq = r :: s.hostq.tail := (List.cons_head?_tail hq).symm
  exact (hostTurn_issue (s := { s with sched := s.sched.tail }) hh hq hd).symm.trans (step_takes_head h hu)

/-- The step that delivers a byte is the receiver's on that byte. -/
theorem step_of_delivers {s t : State} {b : Byte} (h : step s = .next t) (hb : delivers s b) :
    rxStep b { s with sched := s.sched.tail, rxq := s.rxq.tail } = .ok t := by
  obtain ⟨hu, hg, hq⟩ := hb
  have hq : s.rxq = b :: s.rxq.tail := (List.cons_head?_tail hq).symm
  exact finish_next.1 ((execByteReceived_enabled (s := { s with sched := s.sched.tail }) hg hq).symm.trans
    (step_takes_head h hu))

/-! ### The seven flags, and what each event of the table leaves in them -/

/-- The six transport flags of R28 and the gate of R42. -/
structure Flags where
  txReady : Bool
  txBusy : Bool
  rxReady : Bool
  rxBusy : Bool
  txError : Bool
  rxError : Bool
  evtGate : Bool

/-- The flags of a state. -/
def State.flags (s : State) : Flags :=
  ⟨s.txReady, s.txBusy, s.rxReady, s.rxBusy, s.txError, s.rxError, s.evtGate⟩

/-- An equation of the flags, field by field. -/
theorem State.flags_fields {s : State} {f : Flags} (h : s.flags = f) :
    s.txReady = f.txReady ∧ s.txBusy = f.txBusy ∧ s.rxReady = f.rxReady ∧ s.rxBusy = f.rxBusy ∧
    s.txError = f.txError ∧ s.rxError = f.rxError ∧ s.evtGate = f.evtGate := by
  subst h
  exact ⟨rfl, rfl, rfl, rfl, rfl, rfl, rfl⟩

/-- A checksum byte completes the frame, and sets `rx_error` exactly on a mismatch (R146, R252). -/
theorem rxChecksumStep_flags (b : Byte) (s : State) :
    (rxChecksumStep b s).flags =
      { s.flags with rxBusy := false, rxReady := true, rxError := s.rxError || decide (b ≠ rxChecksum s) } := by
  by_cases hb : b = rxChecksum s <;> simp [rxChecksumStep, State.flags, hb]

theorem flags_of_resets {s t : State} (h : step s = .next t) (hr : resets s) :
    t.flags = ⟨true, false, false, false, false, false, false⟩ := by
  cases step_takes_head h hr
  rfl

theorem flags_of_postStep {s t : State} (h : step s = .next t) (hp : postStep s) :
    t.flags = { s.flags with txReady := true, txBusy := false } := by
  obtain ⟨hu, hi, hg, hx⟩ := hp
  have h := finish_next.1 ((step_takes_head h hu).symm.trans (execByteSent_enabled hi hg)).symm
  cases h.symm.trans (txStep_post hx)
  rfl

theorem flags_of_acceptsSend {s t : State} (h : step s = .next t) (ha : acceptsSend s) :
    t.flags = { s.flags with txReady := false, txBusy := true, txError := false } := by
  obtain ⟨hr, ⟨m, hm⟩ | ⟨hu, hp⟩⟩ := ha
  · have h := step_of_issues (i := .send m) h hm (by simp [decodeRequest, hr])
    cases h.symm.trans (execSend_accepted m hr)
    rfl
  · have h := finish_next.1 (step_takes_head h hu)
    rcases hp with hp | hp
    · simp only [pushStep, hp, pushWaitTx1, hr, if_true] at h
      cases h
      rfl
    · simp only [pushStep, hp, pushWaitTx2, hr, if_true] at h
      cases h
      rfl

theorem flags_of_dropsSend {s t : State} (h : step s = .next t) (hd : dropsSend s) :
    t.flags = { s.flags with txError := true } := by
  obtain ⟨hr, m, hm⟩ := hd
  have h := step_of_issues (i := .sendDropped m) h hm (by simp [decodeRequest, hr])
  cases h.symm.trans (execSendDropped_dropped m hr)
  rfl

theorem flags_of_frameStart {s t : State} (h : step s = .next t) (hf : frameStart s) :
    t.flags = { s.flags with rxBusy := true, rxReady := false, rxError := false } := by
  obtain ⟨hb, hd⟩ := hf
  have h := step_of_delivers h hd
  simp only [rxStep, hb, Bool.false_eq_true, if_false, if_true] at h
  cases h
  rfl

theorem flags_of_checksumStep {s t : State} {b : Byte} (h : step s = .next t) (hc : checksumStep s b) :
    t.flags = { s.flags with
      rxBusy := false, rxReady := true, rxError := s.rxError || decide (b ≠ rxSum s) } := by
  obtain ⟨hb, hx, hd⟩ := hc
  have h := step_of_delivers h hd
  simp only [rxStep, hb, hx, if_true] at h
  cases h
  exact rxChecksumStep_flags b _

theorem flags_of_takeReceived {s t : State} (h : step s = .next t) (hi : issues s .takeReceived) :
    t.flags = { s.flags with rxReady := false } := by
  cases step_of_issues h hi rfl
  rfl

/-! ### Nothing else writes a flag -/

/-- No packet's effect writes a transport flag or the gate: `raise IndexOutOfRange` sets `cmd_fault`, and a Push only
starts the sequencer. -/
theorem execCommand_flags {k : Command} {s t : State} (h : execCommand k s = .next t) : t.flags = s.flags := by
  obtain rfl | ⟨-, ⟨_, rfl⟩ | ⟨_, -, rfl⟩ | ⟨_, -, rfl⟩ | rfl | ⟨_, rfl⟩⟩ := execCommand_cases h <;> rfl

theorem execDispatch_flags {m : Message} {s t : State} (h : exec (.dispatch m) s = .next t) : t.flags = s.flags :=
  execCommand_flags ((execDispatch_eq m s).symm.trans h)

/-- Of the transitions of `byte_sent` only Post writes a flag (R119). -/
theorem execByteSent_flags {s t : State} (h : execByteSent s = .next t) :
    t.flags = s.flags ∨ (s.txInflight = true ∧ s.evtGate = false ∧ s.txbuf.xfer = .post) := by
  obtain rfl | ⟨hi, hg, ⟨-, rfl⟩ | ⟨-, rfl⟩ | ⟨-, rfl⟩ | ⟨-, hd⟩ | ⟨-, rfl⟩ | ⟨hx, -⟩⟩ := execByteSent_cases h
  · exact .inl rfl
  · exact .inl rfl
  · exact .inl rfl
  · exact .inl rfl
  · obtain ⟨b, -, rfl⟩ := txDataStep_cases hd
    exact .inl rfl
  · exact .inl rfl
  · exact .inr ⟨hi, hg, hx⟩

/-- Of the transitions of the receiver only the frame start and the Checksum step write a flag (R142, R146). -/
theorem rxStep_flags {b : Byte} {s t : State} (h : rxStep b s = .ok t) :
    t.flags = s.flags ∨ (s.rxBusy = false ∧ b = s.cfg.start) ∨ (s.rxBusy = true ∧ s.rxbuf.xfer = .checksum) := by
  obtain ⟨-, -, rfl⟩ | ⟨hb, hs, -⟩ | ⟨-, -, rfl⟩ | ⟨-, -, rfl⟩ | ⟨-, -, hd⟩ | ⟨hb, hx, -⟩ := rxStep_cases h
  · exact .inl rfl
  · exact .inr (.inl ⟨hb, hs⟩)
  · exact .inl rfl
  · exact .inl rfl
  · obtain ⟨-, rfl⟩ := rxDataStep_cases hd
    exact .inl rfl
  · exact .inr (.inr ⟨hb, hx⟩)

/-- The sequencer writes flags by its two sends, and the gate where the render begins and where the latch ends. -/
theorem pushStep_flags {s t : State} (h : pushStep s = .ok t) :
    t.flags = s.flags ∨ (s.txReady = true ∧ (s.pushState = .waitTx1 ∨ s.pushState = .waitTx2)) ∨
    (s.pushState = .waitBusyDone ∧ t.flags = { s.flags with evtGate := true }) ∨
    (s.pushState = .latch ∧ t.flags = { s.flags with evtGate := false }) := by
  obtain rfl | ⟨hp, hr, -⟩ | ⟨hp, -, rfl⟩ | ⟨-, -, rfl⟩ | ⟨-, -, p, -, rfl⟩ | ⟨hp, rfl⟩ | ⟨hp, hr, -⟩ :=
    pushStep_cases h
  · exact .inl rfl
  · exact .inr (.inl ⟨hr, .inl hp⟩)
  · exact .inr (.inr (.inl ⟨hp, rfl⟩))
  · exact .inl rfl
  · exact .inl rfl
  · exact .inr (.inr (.inr ⟨hp, rfl⟩))
  · exact .inr (.inl ⟨hr, .inr hp⟩)

/-- On the host's turn a flag is written only by a send, accepted or dropped, or by `take_received`. -/
theorem hostTurn_flags {s t : State} (h : hostTurn s = .next t) :
    t.flags = s.flags ∨ (hostHeld s = false ∧
      ((∃ m, s.hostq.head? = some (.send m)) ∨ s.hostq.head? = some .takeReceived)) := by
  obtain rfl | ⟨hh, r, q, hq, ⟨-, rfl⟩ | ⟨i, hd, h⟩⟩ := hostTurn_cases h
  · exact .inl rfl
  · exact .inl rfl
  cases r with
  | send m => exact .inr ⟨hh, .inl ⟨m, by simp [hq]⟩⟩
  | takeReceived => exact .inr ⟨hh, .inr (by simp [hq])⟩
  | dispatch m =>
    cases hd
    exact .inl ((execDispatch_flags h).trans rfl)
  | dispatchTaken =>
    obtain ⟨p, -, rfl⟩ := Option.map_eq_some_iff.1 hd
    exact .inl ((execDispatch_flags h).trans rfl)
  | readStatus =>
    cases hd
    cases h
    exact .inl rfl

/-- The step's turn writes the gate: it begins the render, or ends the latch (R215, R218). -/
def writesGate (s t : State) : Prop :=
  s.sched.head? = some .sequencer ∧
    ((s.pushState = .waitBusyDone ∧ t.flags = { s.flags with evtGate := true }) ∨
     (s.pushState = .latch ∧ t.flags = { s.flags with evtGate := false }))

/-- Every step is an event of R28's table, writes the gate alone, or leaves all seven flags. -/
theorem step_flags_cases {s t : State} (h : step s = .next t) :
    resets s ∨ postStep s ∨ acceptsSend s ∨ dropsSend s ∨ frameStart s ∨ (∃ b, checksumStep s b) ∨
    issues s .takeReceived ∨ writesGate s t ∨ t.flags = s.flags := by
  obtain ⟨-, ⟨-, rfl⟩ | ⟨u, ts, hs, h⟩⟩ := step_cases h
  · simp
  have hu : s.sched.head? = some u := by simp [hs]
  cases u with
  | host =>
    obtain hf | ⟨hh, ⟨m, hm⟩ | hq⟩ := hostTurn_flags h
    · simp [show t.flags = s.flags from hf]
    · have hi : issues s (.send m) := ⟨hu, hh, hm⟩
      cases hr : s.txReady
      · simp [show dropsSend s from ⟨hr, m, hi⟩]
      · simp [show acceptsSend s from ⟨hr, .inl ⟨m, hi⟩⟩]
    · simp [show issues s .takeReceived from ⟨hu, hh, hq⟩]
  | byteSent =>
    obtain hf | hp := execByteSent_flags h
    · simp [show t.flags = s.flags from hf]
    · simp [show postStep s from ⟨hu, hp⟩]
  | byteReceived =>
    obtain rfl | ⟨hg, b, rest, hq, hr⟩ := execByteReceived_cases h
    · simp [State.flags]
    have hb : delivers s b := ⟨hu, hg, by simp [show s.rxq = b :: rest from hq]⟩
    obtain hf | ⟨hi, rfl⟩ | ⟨hi, hx⟩ := rxStep_flags hr
    · simp [show t.flags = s.flags from hf]
    · simp [show frameStart s from ⟨hi, hb⟩]
    · simp [show ∃ b, checksumStep s b from ⟨b, hi, hx, hb⟩]
  | rxArrive b =>
    have hf : t.flags = s.flags := by
      cases h
      dsimp only
      split <;> rfl
    simp [hf]
  | sequencer =>
    obtain hf | ⟨hr, hp⟩ | hg := pushStep_flags (finish_next.1 h)
    · simp [show t.flags = s.flags from hf]
    · simp [show acceptsSend s from ⟨hr, .inr ⟨hu, hp⟩⟩]
    · simp [show writesGate s t from ⟨hu, hg⟩]
  | reset => simp [show resets s from hu]
  | clockChange f | retune d c =>
    cases h
    simp [State.flags]

/-- R28 and R42 read backwards: a flag that changed had one of its writers. -/
theorem flag_changes_have_writers {s t : State} (h : step s = .next t) :
    (t.txReady ≠ s.txReady → resets s ∨ postStep s ∨ acceptsSend s) ∧
    (t.txBusy ≠ s.txBusy → resets s ∨ postStep s ∨ acceptsSend s) ∧
    (t.rxReady ≠ s.rxReady → resets s ∨ frameStart s ∨ (∃ b, checksumStep s b) ∨ issues s .takeReceived) ∧
    (t.rxBusy ≠ s.rxBusy → resets s ∨ frameStart s ∨ ∃ b, checksumStep s b) ∧
    (t.txError ≠ s.txError → resets s ∨ acceptsSend s ∨ dropsSend s) ∧
    (t.rxError ≠ s.rxError → resets s ∨ frameStart s ∨ ∃ b, checksumStep s b ∧ b ≠ rxSum s) ∧
    (t.evtGate ≠ s.evtGate → resets s ∨ (s.sched.head? = some .sequencer ∧
      ((s.pushState = .waitBusyDone ∧ t.evtGate = true) ∨ (s.pushState = .latch ∧ t.evtGate = false)))) := by
  obtain hr | hp | ha | hd | hf | ⟨b, hc⟩ | hi | ⟨hu, ⟨hp, he⟩ | ⟨hp, he⟩⟩ | he := step_flags_cases h
  · simp [hr]
  · simp [hp, State.flags_fields (flags_of_postStep h hp), State.flags]
  · simp [ha, State.flags_fields (flags_of_acceptsSend h ha), State.flags]
  · simp [hd, State.flags_fields (flags_of_dropsSend h hd), State.flags]
  · simp [hf, State.flags_fields (flags_of_frameStart h hf), State.flags]
  · obtain ⟨hr, hb, -, -, he, hre, hg⟩ := State.flags_fields (flags_of_checksumStep h hc)
    have complete : ∃ b, checksumStep s b := ⟨b, hc⟩
    have mismatch : t.rxError ≠ s.rxError → ∃ b, checksumStep s b ∧ b ≠ rxSum s :=
      fun hne => ⟨b, hc, fun heq => hne (by simp [hre, heq])⟩
    exact ⟨absurd hr, absurd hb, by simp [complete], by simp [complete], absurd he,
      fun hne => .inr (.inr (mismatch hne)), absurd hg⟩
  · simp [hi, State.flags_fields (flags_of_takeReceived h hi), State.flags]
  · simp [hu, hp, State.flags_fields he, State.flags]
  · simp [hu, hp, State.flags_fields he, State.flags]
  · simp [State.flags_fields he, State.flags]

/-- Settles O57: each event's flags are computed from the step it names, and a step that is none of the events leaves
the six flags alone and writes the gate only at the ends of the gated interval. -/
theorem flagsHaveTheirWriters : Obligations.FlagsHaveTheirWriters := by
  intro s t h
  refine ⟨fun hr => ?_, fun hp => ?_, fun ha => ?_, fun hd => ?_, fun hf => ?_, fun b hc => ?_, fun hi => ?_,
    flag_changes_have_writers h⟩
  · simpa [State.flags] using flags_of_resets h hr
  · obtain ⟨hr, hb, -⟩ := State.flags_fields (flags_of_postStep h hp)
    exact ⟨hr, hb⟩
  · obtain ⟨hr, hb, -, -, he, -⟩ := State.flags_fields (flags_of_acceptsSend h ha)
    exact ⟨hr, hb, he⟩
  · exact congrArg Flags.txError (flags_of_dropsSend h hd)
  · obtain ⟨-, -, hr, hb, -, he, -⟩ := State.flags_fields (flags_of_frameStart h hf)
    exact ⟨hb, hr, he⟩
  · obtain ⟨-, -, hr, hb, -, he, -⟩ := State.flags_fields (flags_of_checksumStep h hc)
    exact ⟨hb, hr, fun hne => he.trans (by simp [hne])⟩
  · exact congrArg Flags.rxReady (flags_of_takeReceived h hi)

end Sys2Proof.Machine
end

section
/-! SUPPORT. The proofs about the operand forms: index resolution (R86). -/

namespace Sys2Proof.Machine

/-- Bit `i` of a resolved index, at every position: above bit 7 the index byte has no bit set. -/
theorem resolve_getLsbD (a : Half) (x : Byte) (i : Nat) :
    (resolve a x).getLsbD i = (a.getLsbD i && x.getLsbD i) := by
  cases hx : x.getLsbD i with
  | false => simp [resolve, hx]
  | true =>
    have hi : i < 16 := (BitVec.lt_of_getLsbD hx).trans (by decide)
    simp [resolve, hx, hi]

/-- The zero-extension of the index byte does not change its value, so the AND may be taken on numbers. -/
theorem resolve_toNat (a : Half) (x : Byte) : (resolve a x).toNat = a.toNat &&& x.toNat :=
  (BitVec.toNat_and ..).trans (congrArg (a.toNat &&& ·) (BitVec.toNat_setWidth_of_le (by decide)))

theorem resolve_toNat_le_mask (a : Half) (x : Byte) : (resolve a x).toNat ≤ a.toNat :=
  resolve_toNat a x ▸ Nat.and_le_left

theorem resolve_toNat_le_indexByte (a : Half) (x : Byte) : (resolve a x).toNat ≤ x.toNat :=
  resolve_toNat a x ▸ Nat.and_le_right

/-- Settles O32: the bits by `resolve_getLsbD`, those from bit 8 on because a byte has none there, and the bounds
because an AND is at most each of its operands. -/
theorem resolveIsAndWithMask : Obligations.ResolveIsAndWithMask := by
  intro a x
  refine ⟨fun i _ => resolve_getLsbD a x i, fun i hi => ?_, ?_, resolve_toNat_le_mask a x⟩
  · rw [resolve_getLsbD, BitVec.getLsbD_of_ge x i hi, Bool.and_false]
  · have := resolve_toNat_le_indexByte a x
    have := x.isLt
    omega

end Sys2Proof.Machine
end

section
/-! SUPPORT. The proofs about the checksum (R110). -/

namespace Sys2Proof

/-- The order of the data bytes does not matter: exclusive-or is associative and commutative. -/
theorem cks_perm (t l : Byte) {d e : List Byte} (h : d.Perm e) : cks t l d = cks t l e :=
  h.foldl_op_eq (op := (· ^^^ ·))

theorem cks_append_singleton (t l x : Byte) (d : List Byte) : cks t l (d ++ [x]) = cks t l d ^^^ x := by
  simp [cks_append]

/-- The first two data bytes enter the checksum only through their exclusive-or: moved to the end, they are added last. -/
theorem cks_cons_cons (t l a b : Byte) (d : List Byte) : cks t l (a :: b :: d) = cks t l d ^^^ (a ^^^ b) := by
  have moved : (a :: b :: d).Perm (d ++ [a, b]) := List.perm_append_comm (l₁ := [a, b])
  simp [cks_perm t l moved, cks_append]

/-- The same flips in two bytes leave their exclusive-or as it was. -/
theorem xor_flip_both (a b x : Byte) : (a ^^^ x) ^^^ (b ^^^ x) = a ^^^ b := by
  rw [BitVec.xor_comm b x, BitVec.xor_assoc, ← BitVec.xor_assoc x x b, BitVec.xor_self, BitVec.zero_xor]

/-- Settles O11: the base and the last byte by the definition and `cks_append`, any reordering by `cks_perm`, and both
cancellations because two data bytes enter only through their exclusive-or (`cks_cons_cons`). -/
theorem checksumIsRunningXor : Obligations.ChecksumIsRunningXor := by
  refine ⟨cks_nil, cks_append_singleton, fun t l _ _ => cks_perm t l, fun t => ?_, fun t l x d => ?_,
    fun t l a b x d => ?_, by decide⟩
  · exact BitVec.xor_zero
  · rw [cks_cons_cons, BitVec.xor_self, BitVec.xor_zero]
  · rw [cks_cons_cons, cks_cons_cons, xor_flip_both]

end Sys2Proof
end

section
/-! SUPPORT. The proofs about the transmit side: the send that is dropped (R113), and the TX machine's transitions (R115
to R119). -/

namespace Sys2Proof.Machine

/-! ### A dropped send -/

theorem execSend_dropped (m : Message) {s : State} (h : s.txReady = false) :
    execSend m s = .next (sendRefused s) := congrArg _ (if_neg (by simp [h]))

/-- `raise SendWhileBusy` writes `tx_error` and `err_kind` and nothing else (R253). -/
theorem sendRefused_eq (s : State) : sendRefused s = { s with txError := true, errKind := .sendWhileBusy } := rfl

/-- Settles O14: with `tx_ready = 0` both send rows raise SendWhileBusy, which writes only those two fields. -/
theorem sendWhileBusyIsDropped : Obligations.SendWhileBusyIsDropped := fun m s hr =>
  sendRefused_eq s ▸ ⟨execSend_dropped m hr, execSendDropped_dropped m hr⟩

/-! ### The transition of each TX state -/

theorem txStep_type {s : State} (h : s.txbuf.xfer = .type) : txStep s = .ok (txTypeStep s) := by
  simp only [txStep, h]

theorem txStep_length_noData {s : State} (hx : s.txbuf.xfer = .length) (hl : s.txbuf.length = 0) :
    txStep s = .ok (txGoto .checksum { sendByte s.txbuf.length s with txIdx := 0 }) := by
  simp only [txStep, hx, txLengthStep, if_pos hl]

theorem txStep_length_data {s : State} (hx : s.txbuf.xfer = .length) (hl : s.txbuf.length ≠ 0) :
    txStep s = .ok (txGoto .data { sendByte s.txbuf.length s with txIdx := 0 }) := by
  simp only [txStep, hx, txLengthStep, if_neg hl]

/-- The Data transition on the byte the index names; the transition fails only where there is none (R13). -/
theorem txStep_data {s : State} {b : Byte} (hx : s.txbuf.xfer = .data)
    (hb : s.txbuf.data[s.txIdx.toNat]? = some b) :
    txStep s = .ok (txGoto (if s.txIdx + 1 = s.txbuf.length then .checksum else .data)
      { sendByte b s with txIdx := s.txIdx + 1 }) := by
  simp only [txStep, hx, txDataStep, bufRead, hb]

theorem txStep_data_last {s : State} {b : Byte} (hx : s.txbuf.xfer = .data)
    (hb : s.txbuf.data[s.txIdx.toNat]? = some b) (hl : s.txIdx + 1 = s.txbuf.length) :
    txStep s = .ok (txGoto .checksum { sendByte b s with txIdx := s.txIdx + 1 }) := by
  rw [txStep_data hx hb, if_pos hl]

/-- To enter the state the machine is in changes nothing. -/
theorem txGoto_self {x : XferState} {s : State} (h : s.txbuf.xfer = x) : txGoto x s = s := by
  subst h
  rfl

/-- Before the last byte the machine stays in Data, so only the counter and the wire change. -/
theorem txStep_data_more {s : State} {b : Byte} (hx : s.txbuf.xfer = .data)
    (hb : s.txbuf.data[s.txIdx.toNat]? = some b) (hl : s.txIdx + 1 ≠ s.txbuf.length) :
    txStep s = .ok { sendByte b s with txIdx := s.txIdx + 1 } := by
  have stays : txGoto .data { sendByte b s with txIdx := s.txIdx + 1 } = _ := txGoto_self hx
  rw [txStep_data hx hb, if_neg hl, stays]

theorem txStep_checksum {s : State} (h : s.txbuf.xfer = .checksum) : txStep s = .ok (txChecksumStep s) := by
  simp only [txStep, h]

/-! ### The `byte_sent` event -/

/-- An enabled `byte_sent` takes nothing in flight to the transition's state (R114). -/
theorem execByteSent_of_txStep {s t : State} (hi : s.txInflight = true) (hg : s.evtGate = false)
    (h : txStep { s with txInflight := false } = .ok t) : exec .byteSent s = .next t :=
  (execByteSent_enabled hi hg).trans (finish_next.2 h)

/-- Settles O15: the transitions in Type and Length, the latter by whether data follow, with nothing in flight. -/
theorem byteSentSendsTypeAndLength : Obligations.ByteSentSendsTypeAndLength := fun _ hi hg =>
  ⟨fun hx => execByteSent_of_txStep hi hg (txStep_type hx),
   fun hx hl => execByteSent_of_txStep hi hg (txStep_length_noData hx hl),
   fun hx hl => execByteSent_of_txStep hi hg (txStep_length_data hx hl)⟩

/-- Settles O16: the transition in Data on the byte at `tx_idx`, by whether it is the last, with nothing in flight. -/
theorem byteSentSendsDataByte : Obligations.ByteSentSendsDataByte := fun _ _ hi hg hx hb =>
  ⟨fun hl => execByteSent_of_txStep hi hg (txStep_data_last hx hb hl),
   fun hl => execByteSent_of_txStep hi hg (txStep_data_more hx hb hl)⟩

/-- Settles O17: the transitions in Checksum and Post, with nothing in flight. -/
theorem byteSentEndsFrame : Obligations.ByteSentEndsFrame := fun _ hi hg =>
  ⟨fun hx => execByteSent_of_txStep hi hg (txStep_checksum hx), fun hx => execByteSent_of_txStep hi hg (txStep_post hx)⟩

end Sys2Proof.Machine
end

section
/-! SUPPORT. The proofs about the receive side: a byte that arrives (R149), a data byte (R145) and the CHECKSUM byte
(R146). -/

namespace Sys2Proof.Machine

/-! ### A byte arrives -/

theorem execRxArrive_queued (b : Byte) {s : State} (h : s.rxq.length < s.cfg.rxqDepth) :
    execRxArrive b s = .next { s with rxq := s.rxq ++ [b] } := congrArg _ (if_pos h)

theorem execRxArrive_lost (b : Byte) {s : State} (h : s.cfg.rxqDepth ≤ s.rxq.length) :
    execRxArrive b s = .next s := congrArg _ (if_neg h.not_gt)

/-- Settles O20: the only test is for room in the queue, and the gate is not read. -/
theorem arrivingByteIsQueuedOrLost : Obligations.ArrivingByteIsQueuedOrLost := fun b _ =>
  ⟨execRxArrive_queued b, execRxArrive_lost b⟩

/-! ### The transition of an RX state within a frame -/

/-- The Data transition at an index of the buffer; the transition fails only where there is none (R13). -/
theorem rxStep_data (b : Byte) {s : State} (hb : s.rxBusy = true) (hx : s.rxbuf.xfer = .data)
    (hi : s.rxIdx.toNat < s.rxbuf.data.length) :
    rxStep b s = .ok (rxGoto (if s.rxIdx + 1 = s.rxbuf.length then .checksum else .data)
      { s with rxbuf := { s.rxbuf with data := s.rxbuf.data.set s.rxIdx.toNat b }, rxIdx := s.rxIdx + 1 }) := by
  simp only [rxStep, hb, hx, if_true, rxDataStep, bufWrite_of_lt b hi]

theorem rxStep_checksum (b : Byte) {s : State} (hb : s.rxBusy = true) (hx : s.rxbuf.xfer = .checksum) :
    rxStep b s = .ok (rxChecksumStep b s) := by
  simp only [rxStep, hb, hx, if_true]

/-- A checksum that verifies completes the frame, and nothing is recorded (R146). -/
theorem rxChecksumStep_match {b : Byte} {s : State} (h : b = rxChecksum s) :
    rxChecksumStep b s =
      { s with rxBusy := false, rxReady := true, rxbuf := { s.rxbuf with checksum := b, xfer := .done } } := by
  rw [rxChecksumStep, if_pos h]
  rfl

/-- A checksum that does not verify completes the frame too, and ChecksumMismatch is raised (R146, R252). -/
theorem rxChecksumStep_mismatch {b : Byte} {s : State} (h : b ≠ rxChecksum s) :
    rxChecksumStep b s =
      { s with
        rxBusy := false, rxReady := true, rxbuf := { s.rxbuf with checksum := b, xfer := .done },
        rxError := true, errKind := .checksumMismatch } := by
  rw [rxChecksumStep, if_neg h]
  rfl

/-! ### The `byte_received` event -/

/-- An enabled `byte_received` takes the oldest byte to the transition's state (R140). -/
theorem execByteReceived_of_rxStep {s t : State} {b : Byte} {q : List Byte} (hg : s.evtGate = false)
    (hq : s.rxq = b :: q) (h : rxStep b { s with rxq := q } = .ok t) : exec .byteReceived s = .next t :=
  (execByteReceived_enabled hg hq).trans (finish_next.2 h)

/-- Settles O23: the Data transition on the buffer with its byte at `rx_idx` replaced, whatever the byte, by the
library's facts about `List.set`. -/
theorem dataByteIsStored : Obligations.DataByteIsStored := fun s b _ hg hq hb hx hi =>
  ⟨s.rxbuf.data.set s.rxIdx.toNat b, List.length_set, List.getElem?_set_self hi,
    fun _ hj => List.getElem?_set_ne hj.symm, execByteReceived_of_rxStep hg hq (rxStep_data b hb hx hi)⟩

/-- Settles O24: the Checksum transition, by whether the byte is the checksum of the stored packet, which taking the byte
from the queue does not change. -/
theorem checksumByteCompletesFrame : Obligations.ChecksumByteCompletesFrame := by
  intro s b q hg hq hb hx
  have completes : exec .byteReceived s = .next (rxChecksumStep b { s with rxq := q }) :=
    execByteReceived_of_rxStep hg hq (rxStep_checksum b hb hx)
  exact ⟨fun h => completes.trans (congrArg _ (rxChecksumStep_match h)),
    fun h => completes.trans (congrArg _ (rxChecksumStep_mismatch h))⟩

end Sys2Proof.Machine
end

section
/-! SUPPORT. The proofs about the dispatcher: the frame rows without an effect (R173, R174, R179), the rows that write one
register (R171, R172, R175), the rows that write pixels (R176, R177, R180), and that nothing else writes what the
dispatcher owns (R183). -/

namespace Sys2Proof.Machine

/-! ### The rows without an effect -/

/-- A row without an effect leaves the state alone whether or not the packet is refused. -/
theorem admitted_ok_self (s : State) : admitted (fun s => .ok s) s = .next s := ite_self _

/-- Settles O29: each of the five rows is the entry test before no effect. -/
theorem ignoredRowsChangeNothing : Obligations.IgnoredRowsChangeNothing := fun s _ _ =>
  have nothing := admitted_ok_self s
  ⟨nothing, nothing, nothing, nothing, nothing⟩

/-! ### The rows that write one register -/

theorem execBusy_ok (p : List Byte) {s : State} (hc : s.cmdFault = false) :
    execBusy p s = .next { s with okToSend := false } := by
  unfold execBusy
  exact admitted_ok hc rfl

theorem execReady_ok (p : List Byte) {s : State} (hc : s.cmdFault = false) :
    execReady p s = .next { s with okToSend := true } := by
  unfold execReady
  exact admitted_ok hc rfl

/-- Settles O30: past the entry test each of the two rows writes `ok_to_send` alone. -/
theorem handshakePacketsWriteOkToSend : Obligations.HandshakePacketsWriteOkToSend := fun _ p hc =>
  ⟨execBusy_ok p hc, execReady_ok p hc⟩

theorem execSelblk_some (b : Byte) (e : List Byte) {s : State} (hc : s.cmdFault = false) :
    execSelblk (some b) e s = .next { s with activeBlock := b.zeroExtend 16 } := by
  unfold execSelblk
  exact admitted_ok hc rfl

theorem execSelblk_none (e : List Byte) {s : State} (hc : s.cmdFault = false) : execSelblk none e s = .next s :=
  admitted_ok hc rfl

/-- Settles O31: past the entry test an operand is written zero-extended, which keeps its value, and no operand is no
write. -/
theorem selectBlockWritesMask : Obligations.SelectBlockWritesMask := fun _ e hc =>
  ⟨fun b => ⟨b.zeroExtend 16, execSelblk_some b e hc, BitVec.toNat_setWidth_of_le (by decide)⟩,
    execSelblk_none e hc⟩

/-! ### Clear -/

theorem execClear_ok (e : List Byte) {s : State} (hc : s.cmdFault = false) :
    execClear e s = .next { s with pix := s.pix.map fun _ => Pixel.black } := by
  unfold execClear
  exact admitted_ok hc rfl

/-- Settles O34: the row maps every entry of `pix` to black, and a map keeps the length. -/
theorem clearBlacksEveryPixel : Obligations.ClearBlacksEveryPixel := fun s e hc =>
  ⟨s.pix.map fun _ => Pixel.black, execClear_ok e hc, List.length_map _, fun i hi => by simp [hi, Pixel.black]⟩

/-! ### Copy -/

/-- Without a source there is no effect (R176). -/
theorem execCopy_none (ds : List Byte) {s : State} (hc : s.cmdFault = false) : execCopy none ds s = .next s :=
  admitted_ok hc rfl

theorem execCopy_of_copyFrom {x : Byte} {ds : List Byte} {s t : State} (hc : s.cmdFault = false)
    (h : copyFrom x ds s = .ok t) : exec (.copy (some x) ds) s = .next t := admitted_ok hc h

/-- A source out of range ends the copy before any write (R176, R181). -/
theorem copyFrom_outOfRange {x : Byte} (ds : List Byte) {s : State} (h : s.cfg.nLeds ≤ index s x) :
    copyFrom x ds s = .ok (raiseError .indexOutOfRange s) := if_neg (by simpa [inRange_iff] using h)

/-- With the source in range, the destinations in range get the source's pixel, and the copy goes on with the rest. -/
theorem copyFrom_ok {x : Byte} {ds : List Byte} {s : State} (hp : s.pix.length = s.cfg.nLeds)
    (hx : index s x < s.cfg.nLeds) (hd : ∀ d ∈ ds, index s d < s.cfg.nLeds) (rest : List Byte) :
    ∃ (v : Pixel) (p : List Pixel), copyFrom x (ds ++ rest) s = copyTo v rest { s with pix := p } ∧
      p.length = s.pix.length ∧
      ∀ j, p[j]? = if ∃ d ∈ ds, index s d = j then s.pix[index s x]? else s.pix[j]? := by
  have hx' : index s x < s.pix.length := hp ▸ hx
  obtain ⟨p, he, hl, hj⟩ := copyTo_ok s.pix[index s x] ds s hp hd rest
  rw [← copyFrom_inRange (ds ++ rest) hp hx] at he
  rw [← List.getElem?_eq_getElem hx'] at hj
  exact ⟨s.pix[index s x], p, he, hl, hj⟩

/-- Settles O33: `copyFrom_ok` for the destinations in range, followed by none or by one out of range, which ends the
packet as a source out of range does; the raise writes only `cmd_fault` and `err_kind` (R254). -/
theorem copyWritesDestinations : Obligations.CopyWritesDestinations := by
  refine ⟨fun s x ds hc hp hx hds => ?_, fun s ds hc => execCopy_none ds hc,
    fun s x ds hc hx => execCopy_of_copyFrom hc (copyFrom_outOfRange ds hx),
    fun s x d pre post hc hp hx hpre hd => ?_⟩
  · obtain ⟨v, p, he, hl, hj⟩ := copyFrom_ok hp hx hds []
    rw [List.append_nil] at he
    exact ⟨p, execCopy_of_copyFrom hc he, hl, hj⟩
  · obtain ⟨v, p, he, hl, hj⟩ := copyFrom_ok hp hx hpre (d :: post)
    exact ⟨p, execCopy_of_copyFrom hc (he.trans (copyTo_outOfRange v post hd)), hl, hj⟩

/-! ### LED_DATA -/

theorem execLeddata_of_writeGroups {gs : List Group} {s t : State} (tr : List Byte) (hc : s.cmdFault = false)
    (h : writeGroups gs s = .ok t) : exec (.leddata gs tr) s = .next t := admitted_ok hc h

/-- Settles O36: `writeGroups_ok` for the groups in range, followed by none or by one out of range, which ends the
packet with the same raise. -/
theorem ledDataWritesGroups : Obligations.LedDataWritesGroups := by
  refine ⟨fun s gs tr hc hp hgs => ?_, fun s pre post g tr hc hp hpre hg => ?_⟩
  · obtain ⟨p, he, hl, hj⟩ := writeGroups_ok gs s hp hgs []
    rw [List.append_nil] at he
    exact ⟨p, execLeddata_of_writeGroups tr hc he, hl, hj⟩
  · obtain ⟨p, he, hl, hj⟩ := writeGroups_ok pre s hp hpre (g :: post)
    exact ⟨p, execLeddata_of_writeGroups tr hc (he.trans (writeGroups_outOfRange post hg)), hl, hj⟩

/-! ### Nothing but a dispatch writes what the dispatcher owns -/

theorem execByteSent_sameDispatcher {s t : State} (h : execByteSent s = .next t) : SameDispatcher s t := by
  obtain rfl | ⟨-, -, ⟨-, rfl⟩ | ⟨-, rfl⟩ | ⟨-, rfl⟩ | ⟨-, hd⟩ | ⟨-, rfl⟩ | ⟨-, rfl⟩⟩ := execByteSent_cases h
  · exact ⟨rfl, rfl, rfl, rfl⟩
  · exact ⟨rfl, rfl, rfl, rfl⟩
  · exact ⟨rfl, rfl, rfl, rfl⟩
  · exact ⟨rfl, rfl, rfl, rfl⟩
  · obtain ⟨b, -, rfl⟩ := txDataStep_cases hd
    exact ⟨rfl, rfl, rfl, rfl⟩
  · exact ⟨rfl, rfl, rfl, rfl⟩
  · exact ⟨rfl, rfl, rfl, rfl⟩

/-- A mismatch raises ChecksumMismatch, which sets `rx_error` and not `cmd_fault` (R252). -/
theorem rxChecksumStep_sameDispatcher (b : Byte) (s : State) : SameDispatcher s (rxChecksumStep b s) := by
  by_cases h : b = rxChecksum s
  · rw [rxChecksumStep_match h]
    exact ⟨rfl, rfl, rfl, rfl⟩
  · rw [rxChecksumStep_mismatch h]
    exact ⟨rfl, rfl, rfl, rfl⟩

theorem rxStep_sameDispatcher {b : Byte} {s t : State} (h : rxStep b s = .ok t) : SameDispatcher s t := by
  obtain ⟨-, -, rfl⟩ | ⟨-, -, rfl⟩ | ⟨-, -, rfl⟩ | ⟨-, -, rfl⟩ | ⟨-, -, hd⟩ | ⟨-, -, rfl⟩ := rxStep_cases h
  · exact ⟨rfl, rfl, rfl, rfl⟩
  · exact ⟨rfl, rfl, rfl, rfl⟩
  · exact ⟨rfl, rfl, rfl, rfl⟩
  · exact ⟨rfl, rfl, rfl, rfl⟩
  · obtain ⟨-, rfl⟩ := rxDataStep_cases hd
    exact ⟨rfl, rfl, rfl, rfl⟩
  · exact rxChecksumStep_sameDispatcher b s

theorem execByteReceived_sameDispatcher {s t : State} (h : execByteReceived s = .next t) : SameDispatcher s t := by
  obtain rfl | ⟨-, b, q, -, h⟩ := execByteReceived_cases h
  · exact ⟨rfl, rfl, rfl, rfl⟩
  · obtain ⟨hc, ho, ha, hp⟩ := rxStep_sameDispatcher h
    exact ⟨hc, ho, ha, hp⟩

/-- The sequencer reads the pixels and writes none, and its two sends are the transmitter's. -/
theorem pushStep_sameDispatcher {s t : State} (h : pushStep s = .ok t) : SameDispatcher s t := by
  obtain rfl | ⟨-, -, rfl⟩ | ⟨-, -, rfl⟩ | ⟨-, -, rfl⟩ | ⟨-, -, p, -, rfl⟩ | ⟨-, rfl⟩ | ⟨-, -, rfl⟩ :=
    pushStep_cases h <;> exact ⟨rfl, rfl, rfl, rfl⟩

/-- Of the host's requests only the two dispatches run a packet. -/
theorem hostTurn_sameDispatcher {s t : State} (h : hostTurn s = .next t)
    (hm : ∀ m : Message, s.hostq.head? ≠ some (.dispatch m)) (ht : s.hostq.head? ≠ some .dispatchTaken) :
    SameDispatcher s t := by
  obtain rfl | ⟨-, r, q, hq, ⟨-, rfl⟩ | ⟨i, hd, h⟩⟩ := hostTurn_cases h
  · exact ⟨rfl, rfl, rfl, rfl⟩
  · exact ⟨rfl, rfl, rfl, rfl⟩
  cases r with
  | send m =>
    cases hr : s.txReady
    · obtain rfl : Instr.sendDropped m = i := by simpa [decodeRequest, hr] using hd
      cases h.symm.trans (execSendDropped_dropped m hr)
      exact ⟨rfl, rfl, rfl, rfl⟩
    · obtain rfl : Instr.send m = i := by simpa [decodeRequest, hr] using hd
      cases h.symm.trans (execSend_accepted m hr)
      exact ⟨rfl, rfl, rfl, rfl⟩
  | takeReceived | readStatus =>
    cases hd
    cases h
    exact ⟨rfl, rfl, rfl, rfl⟩
  | dispatch m => exact absurd (by simp [hq]) (hm m)
  | dispatchTaken => exact absurd (by simp [hq]) ht

/-- A turn writes what the dispatcher owns only if it is reset's, or the host's with a dispatch to issue. -/
theorem takeTurn_sameDispatcher {u : Turn} {s t : State} (h : takeTurn u s = .next t) (hr : u ≠ .reset)
    (hu : u = .host → (∀ m : Message, s.hostq.head? ≠ some (.dispatch m)) ∧ s.hostq.head? ≠ some .dispatchTaken) :
    SameDispatcher s t := by
  cases u with
  | host =>
    obtain ⟨hm, ht⟩ := hu rfl
    exact hostTurn_sameDispatcher h hm ht
  | byteSent => exact execByteSent_sameDispatcher h
  | byteReceived => exact execByteReceived_sameDispatcher h
  | rxArrive b =>
    obtain rfl := Host.Outcome.next.inj h
    split <;> exact ⟨rfl, rfl, rfl, rfl⟩
  | sequencer => exact pushStep_sameDispatcher (finish_next.1 h)
  | reset => exact absurd rfl hr
  | clockChange | retune =>
    cases h
    exact ⟨rfl, rfl, rfl, rfl⟩

/-- Settles O52: a step is the turn at the head of `sched`, and of the turns only reset's and the host's dispatch write
the four fields. -/
theorem onlyDispatchWritesPixels : Obligations.OnlyDispatchWritesPixels := by
  intro s t h hr hu
  obtain ⟨-, ⟨-, rfl⟩ | ⟨u, ts, hs, h⟩⟩ := step_cases h
  · exact ⟨rfl, rfl, rfl, rfl⟩
  rw [hs, List.head?_cons] at hr hu
  obtain ⟨hc, ho, ha, hp⟩ := takeTurn_sameDispatcher h (fun e => hr (congrArg some e))
    fun e => hu.resolve_left (absurd (congrArg some e))
  exact ⟨hc, ho, ha, hp⟩

end Sys2Proof.Machine
end

section
/-! SUPPORT. The proofs about the output driver: the wire word (R212), the steps of the push sequencer that bound the
render (R215, R217, R218), and its steps within the render (R216). -/

namespace Sys2Proof.Machine

/-! ### The wire word -/

/-- The shifts and ORs of R212 are the library's form of appending, green above red above blue. -/
theorem grb_eq_append (p : Pixel) : grb p = (p.g ++ p.r ++ p.b).setWidth 24 := by
  rw [BitVec.setWidth_append_append_eq_shiftLeft_setWidth_or]
  rfl

theorem grb_getLsbD (p : Pixel) (i : Nat) :
    (grb p).getLsbD i =
      if i < 8 then p.b.getLsbD i else if i < 16 then p.r.getLsbD (i - 8) else p.g.getLsbD (i - 16) := by
  have bits : (grb p).getLsbD i = (p.g ++ p.r ++ p.b).getLsbD i := by
    rw [grb_eq_append]
    exact congrArg (BitVec.getLsbD · i) (BitVec.setWidth_eq _)
  have red : i - 8 < 8 ↔ i < 16 := by omega
  rw [bits, BitVec.getLsbD_append, BitVec.getLsbD_append]
  simp only [red, Nat.sub_sub, Nat.reduceAdd]

/-- Settles O43: each position of the wire word lies in the byte its colour has there, by `grb_getLsbD`. -/
theorem wireWordIsGreenRedBlue : Obligations.WireWordIsGreenRedBlue := by
  intro p k hk
  refine ⟨?_, ?_, ?_⟩
  · rw [grb_getLsbD, if_neg (by omega), if_neg (by omega), show 23 - k - 16 = 7 - k by omega]
  · rw [grb_getLsbD, if_neg (by omega), if_pos (by omega), show 15 - k - 8 = 7 - k by omega]
  · rw [grb_getLsbD, if_pos (by omega)]

/-! ### A symbol on the LED line, and the render position after it -/

/-- Unless the push's output is open, a symbol reaches the strip as itself, and no draw is made (R14, R224). -/
theorem emitSym_closed (y : LedSym) {s : State} (h : s.ledOpen = false) :
    emitSym y s = { s with ledOut := s.ledOut ++ [y], ledLine := .low } := by
  simp [emitSym, h]

theorem advance_lastBit {s : State} (h : s.serBit = 23) :
    advance s = { s with serBit := 0, serPix := s.serPix + 1 } := by
  simp [advance, h]

/-- Before the last bit the position stays in its pixel: the bit counter does not wrap. -/
theorem advance_withinPixel {s : State} (h : s.serBit.val < 23) : advance s = { s with serBit := s.serBit + 1 } := by
  have noWrap : s.serBit + 1 ≠ 0 := fun h0 => by
    have := Fin.val_add_one_of_lt (i := s.serBit) h
    simp [h0] at this
  simp [advance, noWrap]

/-! ### The sequencer's step from WaitBusyDone to Latch -/

theorem pushStep_waitBusyDone {s : State} (hp : s.pushState = .waitBusyDone) (hr : s.txReady = true) :
    pushStep s = .ok { s with evtGate := true, serPix := 0, serBit := 0, pushState := .render } := by
  simp only [pushStep, hp, pushWaitBusyDone, if_pos hr]

theorem pushStep_render_done {s : State} (hp : s.pushState = .render) (hn : s.serPix = s.cfg.nLeds) :
    pushStep s = .ok { s with pushState := .latch } := by
  simp only [pushStep, hp, pushRender, if_pos hn]

theorem pushStep_render_bit {s : State} {p : Pixel} (hp : s.pushState = .render) (hn : s.serPix < s.cfg.nLeds)
    (hx : s.pix[s.serPix]? = some p) :
    pushStep s = .ok (advance (emitBit ((grb p).getLsbD (23 - s.serBit.val)) s)) := by
  simp only [pushStep, hp, pushRender, if_neg hn.ne, pixRead, hx]

theorem pushStep_latch {s : State} (hp : s.pushState = .latch) : pushStep s = .ok (pushLatch s) := by
  simp only [pushStep, hp]

/-- Settles O39: the step in WaitBusyDone, in Render past the last pixel, and in Latch, whose symbol reaches the strip
as itself because the output is not open. -/
theorem sequencerGatesRenderAndLatch : Obligations.SequencerGatesRenderAndLatch := by
  refine fun s => ⟨pushStep_waitBusyDone, pushStep_render_done, fun hp ho => ?_⟩
  rw [pushStep_latch hp, pushLatch, emitLatch, emitSym_closed _ ho]

/-- Settles O40: the step in Render emits the bit at `ser_bit`, and then the position moves on within the pixel or,
after bit 23, to the next. -/
theorem renderEmitsNextBit : Obligations.RenderEmitsNextBit := by
  intro s p hp hn hx ho
  refine ⟨fun hk => ⟨s.serBit + 1, Fin.val_add_one_of_lt (i := s.serBit) hk, ?_⟩, fun hk => ?_⟩
  · rw [pushStep_render_bit hp hn hx, advance_withinPixel (s := emitBit _ s) hk, emitBit, emitSym_closed _ ho]
  · rw [pushStep_render_bit hp hn hx, advance_lastBit (s := emitBit _ s) (Fin.ext hk), emitBit, emitSym_closed _ ho,
      hk]

end Sys2Proof.Machine
end

section
/-! SUPPORT. The proofs about the encodings: a command's packet and its decode (R97, R99), a packet's frame and its
decode (R80, R81, R98), and words written out. -/

namespace Sys2Proof

/-! ### The decode on a TYPE byte and data bytes, by the value tested (R97) -/

theorem decodeData_typeBusy (c : Params) (d : List Byte) : decodeData c c.typeBusy d = .busy d := if_pos rfl

theorem decodeData_unassigned {c : Params} {t : Byte} (d : List Byte) (h : t ∉ c.types) :
    decodeData c t d = .typeUnassigned t d := by
  simp only [Params.types, List.mem_cons, not_or] at h
  obtain ⟨hEmpty, hTest, hCtrl, hData, hBusy, hReady, -⟩ := h
  simp only [decodeData, if_neg, hEmpty, hTest, hCtrl, hData, hBusy, hReady, not_false_eq_true]

theorem decodeCtrl_reserved {c : Params} {k : Byte} (a : List Byte) (h : k ∉ c.subs) :
    decodeCtrl c (k :: a) = .ctrlReserved k a := by
  simp only [Params.subs, List.mem_cons, not_or] at h
  obtain ⟨hSel, hCopy, hClear, hPush, -⟩ := h
  simp only [decodeCtrl, if_neg, hSel, hCopy, hClear, hPush, not_false_eq_true]

theorem Params.Valid.type_ne {c : Params} (h : c.Valid) :
    c.typeReady ≠ c.typeBusy ∧ (c.typeLedData ≠ c.typeBusy ∧ c.typeLedData ≠ c.typeReady) ∧
    (c.typeLedCtrl ≠ c.typeBusy ∧ c.typeLedCtrl ≠ c.typeReady ∧ c.typeLedCtrl ≠ c.typeLedData) ∧
    (c.typeEmpty ≠ c.typeBusy ∧ c.typeEmpty ≠ c.typeReady ∧ c.typeEmpty ≠ c.typeLedData ∧
      c.typeEmpty ≠ c.typeLedCtrl) ∧
    c.typeTest ≠ c.typeBusy ∧ c.typeTest ≠ c.typeReady ∧ c.typeTest ≠ c.typeLedData ∧ c.typeTest ≠ c.typeLedCtrl ∧
      c.typeTest ≠ c.typeEmpty := by
  have h := h.types_distinct
  simp only [Params.types, List.nodup_cons, List.mem_cons, not_or] at h
  grind

theorem Params.Valid.sub_ne {c : Params} (h : c.Valid) :
    c.subCopy ≠ c.subSelectBlock ∧ (c.subClear ≠ c.subSelectBlock ∧ c.subClear ≠ c.subCopy) ∧
    c.subPush ≠ c.subSelectBlock ∧ c.subPush ≠ c.subCopy ∧ c.subPush ≠ c.subClear := by
  have h := h.subs_distinct
  simp only [Params.subs, List.nodup_cons, List.mem_cons, not_or] at h
  grind

/-- An optional operand and the bytes after it, read back: no byte follows a missing operand (R87, R88). -/
theorem operand_readBack {b : Option Byte} {e : List Byte} (h : (b.isSome || e.isEmpty) = true) :
    (b.toList ++ e).head? = b ∧ (b.toList ++ e).tail = e := by
  cases b with
  | none =>
    obtain rfl : e = [] := by simpa using h
    exact ⟨rfl, rfl⟩
  | some b => exact ⟨rfl, rfl⟩

/-- A command's TYPE and data bytes decode to the command: the values of R84 and of R85 are distinct. -/
theorem decodeData_of_command {c : Params} (hc : c.Valid) {k : Command} (hk : k.shapeOk c = true) :
    decodeData c (k.type c) (k.data c) = k := by
  obtain ⟨ready, ⟨data, data'⟩, ⟨ctrl, ctrl', ctrl''⟩, ⟨empty, empty', empty'', empty'''⟩, test⟩ := hc.type_ne
  obtain ⟨copy, ⟨clear, clear'⟩, push⟩ := hc.sub_ne
  have control (d : List Byte) : decodeData c c.typeLedCtrl d = decodeCtrl c d := by
    simp [decodeData, ctrl, ctrl', ctrl'']
  cases k with
  | empty p => simp [Command.type, Command.data, decodeData, empty, empty', empty'', empty''']
  | test p => simp [Command.type, Command.data, decodeData, test]
  | ctrlNone => exact control []
  | selblk b e =>
    obtain ⟨hb, he⟩ := operand_readBack hk
    simp [Command.type, Command.data, control, decodeCtrl, hb, he]
  | copy s d =>
    obtain ⟨hs, hd⟩ := operand_readBack hk
    simp [Command.type, Command.data, control, decodeCtrl, copy, hs, hd]
  | clear e => simp [Command.type, Command.data, control, decodeCtrl, clear, clear']
  | push e => simp [Command.type, Command.data, control, decodeCtrl, push]
  | ctrlReserved s a => exact (control _).trans (decodeCtrl_reserved a (of_decide_eq_true hk))
  | leddata g t =>
    simp [Command.type, Command.data, decodeData, data, data', splitGroups_bytes g t (of_decide_eq_true hk)]
  | busy p => exact decodeData_typeBusy c p
  | ready p => simp [Command.type, Command.data, decodeData, ready]
  | typeUnassigned t p => exact decodeData_unassigned p (of_decide_eq_true hk)

/-- Within `MAX_DATA` a command's packet carries all the command's data bytes: the length fits a byte, and no send clamps
it (R99, R112). -/
theorem encodeCommand_payload {c : Params} (hc : c.maxData ≤ 255) {k : Command} (hk : k.size ≤ c.maxData) :
    (encodeCommand c k).payload c = k.data c := by
  have hl : (k.data c).length = k.size := k.data_length c
  have len : (encodeCommand c k).len c = (k.data c).length := by
    simp only [Message.len, encodeCommand, BitVec.toNat_ofNat]
    omega
  rw [Message.payload_of_le len.le, len]
  exact List.take_length

/-- Settles O8: the packet carries the command's data bytes, and they decode to the command under its TYPE. -/
theorem decodeOfEncodedCommand : Obligations.DecodeOfEncodedCommand := by
  intro c k hc hk
  simp only [Command.wf, Bool.and_eq_true, decide_eq_true_eq] at hk
  obtain ⟨hsize, hshape⟩ := hk
  rw [decodePacket, encodeCommand_payload hc.maxData_le hsize]
  exact decodeData_of_command hc hshape

/-! ### What is decoded is well formed and encodes to what it was decoded from -/

theorem decodeCtrl_encodes (c : Params) (d : List Byte) :
    (decodeCtrl c d).type c = c.typeLedCtrl ∧ (decodeCtrl c d).data c = d ∧ (decodeCtrl c d).shapeOk c = true := by
  cases d with
  | nil => exact ⟨rfl, rfl, rfl⟩
  | cons k a =>
    have operand : a.head?.toList ++ a.tail = a ∧ (a.head?.isSome || a.tail.isEmpty) = true := by cases a <;> simp
    by_cases hs : k = c.subSelectBlock
    · simp [decodeCtrl, hs, Command.type, Command.data, Command.shapeOk, operand]
    by_cases hc : k = c.subCopy
    · rw [decodeCtrl, if_neg hs, if_pos hc]
      simp [hc, Command.type, Command.data, Command.shapeOk, operand]
    by_cases hl : k = c.subClear
    · rw [decodeCtrl, if_neg hs, if_neg hc, if_pos hl]
      exact ⟨rfl, by rw [hl]; rfl, rfl⟩
    by_cases hp : k = c.subPush
    · rw [decodeCtrl, if_neg hs, if_neg hc, if_neg hl, if_pos hp]
      exact ⟨rfl, by rw [hp]; rfl, rfl⟩
    have reserved : k ∉ c.subs := by simp [Params.subs, hs, hc, hl, hp]
    rw [decodeCtrl_reserved a reserved]
    exact ⟨rfl, rfl, decide_eq_true reserved⟩

/-- R97's order of tests does not matter here: whichever value the TYPE byte has, the command it selects has that TYPE,
those data bytes, and operands in shape. -/
theorem decodeData_encodes (c : Params) (t : Byte) (d : List Byte) :
    (decodeData c t d).type c = t ∧ (decodeData c t d).data c = d ∧ (decodeData c t d).shapeOk c = true := by
  unfold decodeData
  split
  · next h => exact ⟨h.symm, rfl, rfl⟩
  split
  · next h => exact ⟨h.symm, rfl, rfl⟩
  split
  · next h => exact ⟨h.symm, splitGroups_join d, decide_eq_true (splitGroups_trailing d)⟩
  split
  · next h => exact h ▸ decodeCtrl_encodes c d
  split
  · next h => exact ⟨h.symm, rfl, rfl⟩
  split
  · next h => exact ⟨h.symm, rfl, rfl⟩
  · refine ⟨rfl, rfl, decide_eq_true ?_⟩
    simp [Params.types, *]

/-- Settles O9: the command has the packet's TYPE and its data bytes below the clamped length, so its size is that length
and its packet the one decoded. -/
theorem encodeOfDecodedPacket : Obligations.EncodeOfDecodedPacket := by
  intro c m
  obtain ⟨htype, hdata, hshape⟩ := decodeData_encodes c m.type (m.payload c)
  have hlen : ((decodePacket c m).data c).length = m.len c := (congrArg List.length hdata).trans (m.payload_length c)
  constructor
  · have hsize : (decodePacket c m).size ≤ c.maxData := by
      rw [← Command.data_length c, hlen]
      exact m.len_le c
    exact Bool.and_eq_true_iff.2 ⟨decide_eq_true hsize, hshape⟩
  · rw [encodeCommand, hlen, decodePacket, htype, hdata]
    rfl

/-! ### Frames -/

/-- Settles O10: the length on the wire is the clamped one, which clamps to itself, so the decoder takes exactly the
data bytes sent, and the checksum is the one it computes over them. -/
theorem frameOfPacketDecodes : Obligations.FrameOfPacketDecodes := by
  intro c m rest
  have clamped : min (clampLen c m.length).toNat c.maxData = (m.payload c).length := by
    rw [m.payload_length, clampLen_toNat, Message.len, min_assoc, min_self]
  refine ⟨⟨m.type, clampLen c m.length, m.payload c, cks m.type (clampLen c m.length) (m.payload c)⟩, ?_, rfl, rfl, rfl,
    beq_self_eq_true _⟩
  simp only [encodeFrame, decodeFrame, List.cons_append, List.append_assoc, if_true, clamped, List.drop_left,
    List.take_left]
  rw [if_neg (by simp), clampLen_idem, List.nil_append]

/-- Settles O7: each frame is computed. -/
theorem writtenFramesDecode : Obligations.WrittenFramesDecode := by
  unfold Obligations.WrittenFramesDecode
  decide

/-! ### One changed byte -/

/-- A data byte enters the checksum by exclusive-or, wherever it stands. -/
theorem cks_insert (t l x : Byte) (a b : List Byte) : cks t l (a ++ x :: b) = cks t l (a ++ b) ^^^ x := by
  rw [← cks_append_singleton]
  exact cks_perm t l (List.perm_middle.trans (List.perm_append_singleton x (a ++ b)).symm)

theorem cks_set_inj {t l x : Byte} {d : List Byte} {i : Nat} (hi : i < d.length)
    (h : cks t l (d.set i x) = cks t l d) : d[i] = x := by
  have old : d = d.take i ++ d[i] :: d.drop (i + 1) := by simp
  have new : d.set i x = d.take i ++ x :: d.drop (i + 1) := List.set_eq_take_append_cons_drop.trans (if_pos hi)
  have sums := calc
    cks t l (d.take i ++ d.drop (i + 1)) ^^^ d[i] = cks t l d := by rw [← cks_insert, ← old]
    _ = cks t l (d.take i ++ d.drop (i + 1)) ^^^ x := by rw [← h, new, cks_insert]
  exact (BitVec.xor_right_inj _).1 sums

/-- Settles O12. -/
theorem checksumDetectsOneChange : Obligations.ChecksumDetectsOneChange := by
  refine ⟨fun t l d => ?_, fun t t' l d h => ?_, fun t l l' d h => ?_, fun t l x d i hi h => ?_⟩
  · have start : (t :: l :: (d ++ [cks t l d])).foldl (· ^^^ ·) 0 = cks t l (d ++ [cks t l d]) := by
      simp [cks]
    rw [start, cks_append_singleton, BitVec.xor_self]
    rfl
  · simpa [cks_eq] using h
  · simpa [cks_eq] using h
  · simp [List.getElem?_eq_getElem hi, cks_set_inj hi h]

end Sys2Proof
end

section
/-! SUPPORT. What a step does to the block, said once: the request taken off the queue and the turn off the schedule, one
effect of the agent whose turn it is. -/

namespace Sys2Proof.Machine

/-- The effects an agent's turn can have (R250), on a state whose turn and request are already taken off their lists. -/
inductive Effect : Turn → State → State → Prop where
  | nothing {u : Turn} {s : State} : Effect u s s
  | packet {s t : State} {k : Command} (idle : hostHeld s = false) (h : execCommand k s = .next t) : Effect .host s t
  | send {s : State} (m : Message) (idle : hostHeld s = false) (ready : s.txReady = true) :
      Effect .host s (sendAccepted m s)
  | sendDropped {s : State} (busy : s.txReady = false) : Effect .host s (sendRefused s)
  | takeReceived {s : State} : Effect .host s { s with takeResult := some s.rxbuf, rxReady := false }
  | readStatus {s : State} : Effect .host s { s with statusResult := some (status s, errKindView s) }
  | byteSent {s t : State} (h : execByteSent s = .next t) : Effect .byteSent s t
  | byteReceived {s t : State} (h : execByteReceived s = .next t) : Effect .byteReceived s t
  | rxArrive {s : State} (b : Byte) (room : s.rxq.length < s.cfg.rxqDepth) :
      Effect (.rxArrive b) s { s with rxq := s.rxq ++ [b] }
  | sequencer {s t : State} (h : pushStep s = .ok t) : Effect .sequencer s t
  | reset {s : State} : Effect .reset s (resetBlock s)
  | clockChange {s : State} (f : Nat) : Effect (.clockChange f) s (changeClock f s)
  | retune {s : State} (div cal : Nat) : Effect (.retune div cal) s (retune div cal s)

/-- The effect of an issued request. -/
theorem effect_of_request {s t : State} {r : HostRequest} {i : Instr} (idle : hostHeld s = false)
    (hd : decodeRequest s.txReady s.takeResult r = some i) (h : exec i s = .next t) : Effect .host s t := by
  cases r with
  | send m =>
    cases hr : s.txReady
    · obtain rfl : Instr.sendDropped m = i := by simpa [decodeRequest, hr] using hd
      cases h.symm.trans (execSendDropped_dropped m hr)
      exact .sendDropped hr
    · obtain rfl : Instr.send m = i := by simpa [decodeRequest, hr] using hd
      cases h.symm.trans (execSend_accepted m hr)
      exact .send m idle hr
  | takeReceived =>
    cases hd
    cases h
    exact .takeReceived
  | dispatch m =>
    cases hd
    exact .packet idle ((execDispatch_eq m s).symm.trans h)
  | dispatchTaken =>
    obtain ⟨p, -, rfl⟩ := Option.map_eq_some_iff.1 hd
    exact .packet idle ((execDispatch_eq p.message s).symm.trans h)
  | readStatus =>
    cases hd
    cases h
    exact .readStatus

/-- A turn takes at most a request off the queue, and then has one of its agent's effects. -/
theorem takeTurn_effect {u : Turn} {s t : State} (h : takeTurn u s = .next t) :
    ∃ q, Effect u { s with hostq := q } t := by
  cases u with
  | host =>
    obtain rfl | ⟨idle, r, q, -, ⟨-, rfl⟩ | ⟨i, hd, h⟩⟩ := hostTurn_cases h
    · exact ⟨t.hostq, .nothing⟩
    · exact ⟨q, .nothing⟩
    · exact ⟨q, effect_of_request (s := { s with hostq := q }) idle hd h⟩
  | byteSent => exact ⟨s.hostq, .byteSent h⟩
  | byteReceived => exact ⟨s.hostq, .byteReceived h⟩
  | rxArrive b =>
    obtain rfl := Host.Outcome.next.inj h
    refine ⟨s.hostq, ?_⟩
    split
    · next room => exact .rxArrive b room
    · exact .nothing
  | sequencer => exact ⟨s.hostq, .sequencer (finish_next.1 h)⟩
  | reset =>
    cases h
    exact ⟨s.hostq, .reset⟩
  | clockChange f =>
    cases h
    exact ⟨s.hostq, .clockChange f⟩
  | retune d c =>
    cases h
    exact ⟨s.hostq, .retune d c⟩

/-- A step under valid parameters: nobody moves, or the turn at the head of `sched` has its effect. -/
theorem step_effect {s t : State} (h : step s = .next t) :
    t = s ∨ ∃ u ts q, s.sched = u :: ts ∧ Effect u { s with sched := ts, hostq := q } t := by
  obtain ⟨-, ⟨-, rfl⟩ | ⟨u, ts, hs, h⟩⟩ := step_cases h
  · exact .inl rfl
  · obtain ⟨q, he⟩ := takeTurn_effect h
    exact .inr ⟨u, ts, q, hs, he⟩

end Sys2Proof.Machine
end

section
/-! SUPPORT. The proofs about the invariant: it holds after reset (R51), and every effect of a step keeps it. -/

namespace Sys2Proof.Machine

/-! ### Reset -/

theorem inv_resetOf {c : Params} (hc : c.Valid) : Inv (State.resetOf c) := by
  constructor <;> simp [State.resetOf, resetPacket, gated, txActive, rxActive, afterBusy, hc]

/-- Settles O2: every field of the invariant is read off the reset values. -/
theorem resetMeetsInvariant : Obligations.ResetMeetsInvariant :=
  ⟨fun _ => inv_resetOf, inv_resetOf Params.reference_valid⟩

/-- The clock's settings may be stale after reset, but no push runs then. -/
theorem Inv.after_resetBlock {s : State} (hi : Inv s) : Inv (resetBlock s) :=
  { inv_resetOf hi.cfg_valid with push_open := fun hp => absurd rfl hp }

/-! ### The host's requests -/

/-- A host that is not held has no push running (R266). -/
theorem Inv.pushState_of_not_held {s : State} (hi : Inv s) (idle : hostHeld s = false) : s.pushState = .idle := by
  by_contra hp
  simp [hostHeld, hp, hi.push_done_low hp] at idle

theorem Inv.after_execCommand {s t : State} {k : Command} (hi : Inv s) (hp : s.pushState = .idle)
    (h : execCommand k s = .next t) : Inv t := by
  obtain rfl | ⟨hc, ⟨b, rfl⟩ | ⟨p, hl, rfl⟩ | ⟨p, hl, rfl⟩ | rfl | ⟨b, rfl⟩⟩ := execCommand_cases h
  · exact hi
  · exact { hi with block_high := (BitVec.toNat_setWidth_of_le (by decide)).trans_lt b.isLt }
  · exact { hi with pix_length := hl.trans hi.pix_length }
  · exact { hi with pix_length := hl.trans hi.pix_length, push_no_fault := fun hn => absurd hp hn }
  · have gate : s.evtGate = false := hi.gate_iff.trans (congrArg gated hp)
    exact { hi with
      push_done_low := fun _ => rfl
      gate_iff := gate
      push_ready := fun h => by simp [afterBusy] at h
      push_no_fault := fun _ => hc
      push_open := fun _ ht => congrArg not ht }
  · exact { hi with }

/-- A send sets every part of the TX path anew; only the sequencer reads its flag (R219). -/
theorem Inv.after_sendAccepted {s : State} (hi : Inv s) (m : Message) (hp : afterBusy s.pushState = false) :
    Inv (sendAccepted m s) :=
  { hi with
    txdata_length := (sendBuffer_data_length m s (hi.txdata_length ▸ m.len_le s.cfg)).trans hi.txdata_length
    txlen_le := (clampLen_toNat s.cfg m.length).trans_le (Nat.min_le_right _ _)
    txidx_lt := fun h => by cases h
    tx_ready_busy := rfl
    tx_busy_iff := rfl
    inflight_iff := rfl
    push_ready := fun h => by cases hp.symm.trans h }

/-! ### The TX event -/

/-- A transition that sends a byte and stays within the frame (R115 to R118). -/
theorem Inv.txNext {s : State} (hi : Inv s) (busy : s.txBusy = true) (b : Byte) {x : XferState} {i : Byte}
    (hx : txActive x = true) (hle : i.toNat ≤ s.cfg.maxData) (hlt : x = .data → i.toNat < s.txbuf.length.toNat) :
    Inv (txGoto x { sendByte b { s with txInflight := false } with txIdx := i }) :=
  { hi with
    txidx_le := hle
    txidx_lt := hlt
    tx_busy_iff := busy.trans hx.symm
    inflight_iff := busy.symm }

/-- The two states that the length and the data transitions lead to are within a frame. -/
theorem checksum_or_data (p : Prop) [Decidable p] :
    txActive (if p then .checksum else .data) = true ∧ rxActive (if p then .checksum else .data) = true ∧
    (if p then XferState.checksum else .data) ≠ .post := by
  split <;> simp [txActive, rxActive]

/-- A counter below its length goes up by one without wrapping. -/
theorem counter_succ {i l : Byte} (h : i.toNat < l.toNat) : (i + 1).toNat = i.toNat + 1 := by
  have := l.isLt
  exact (BitVec.toNat_add i 1).trans (Nat.mod_eq_of_lt (by simp; omega))

/-- The length transition enters Data only when there is a byte to come (R116, R144). -/
theorem counter_zero_lt_of_data {l : Byte} (hx : (if l = 0 then XferState.checksum else .data) = .data) :
    (0 : Byte).toNat < l.toNat := by
  have hne : l ≠ 0 := fun he => by cases (if_pos he).symm.trans hx
  exact Nat.pos_of_ne_zero fun he => hne (BitVec.eq_of_toNat_eq he)

/-- The data transition leaves Data exactly when the counter reaches the length (R117, R145). -/
theorem counter_lt_of_data {i l : Byte} (h : i.toNat < l.toNat)
    (hx : (if i + 1 = l then XferState.checksum else .data) = .data) : (i + 1).toNat < l.toNat := by
  have hne : i + 1 ≠ l := fun he => by cases (if_pos he).symm.trans hx
  have hne : (i + 1).toNat ≠ l.toNat := fun he => hne (BitVec.eq_of_toNat_eq he)
  rw [counter_succ h] at hne ⊢
  omega

theorem Inv.after_byteSent {s t : State} (hi : Inv s) (h : execByteSent s = .next t) : Inv t := by
  obtain rfl | ⟨hf, hg, h⟩ := execByteSent_cases h
  · exact hi
  have busy : s.txBusy = true := hi.inflight_iff.symm.trans hf
  have active : txActive s.txbuf.xfer = true := hi.tx_busy_iff.symm.trans busy
  obtain ⟨hx | hx, rfl⟩ | ⟨hx, rfl⟩ | ⟨hx, rfl⟩ | ⟨hx, hd⟩ | ⟨hx, rfl⟩ | ⟨hx, rfl⟩ := h
  · simp [hx, txActive] at active
  · simp [hx, txActive] at active
  · exact hi.txNext busy _ rfl hi.txidx_le (fun h => by cases h)
  · exact hi.txNext busy _ (checksum_or_data _).1 (Nat.zero_le _) counter_zero_lt_of_data
  · obtain ⟨b, -, rfl⟩ := txDataStep_cases hd
    have hlt := hi.txidx_lt hx
    exact hi.txNext busy b (checksum_or_data _).1
      ((counter_succ hlt).trans_le (hlt.trans_le hi.txlen_le)) (counter_lt_of_data hlt)
  · exact hi.txNext busy _ rfl hi.txidx_le (fun h => by cases h)
  · exact { hi with
      txidx_lt := fun h => by cases h
      tx_ready_busy := rfl
      tx_busy_iff := rfl
      inflight_iff := rfl
      push_ready := fun _ => rfl }

/-! ### The RX event -/

theorem Inv.after_rxChecksumStep {s : State} (hi : Inv s) (b : Byte) : Inv (rxChecksumStep b s) := by
  by_cases hb : b = rxChecksum s
  · rw [rxChecksumStep_match hb]
    exact { hi with
      rxidx_lt := fun h => by cases h
      rx_ready_busy := fun h => by cases h.2
      rx_busy_iff := rfl
      rx_no_post := fun h => by cases h }
  · rw [rxChecksumStep_mismatch hb]
    exact { hi with
      rxidx_lt := fun h => by cases h
      rx_ready_busy := fun h => by cases h.2
      rx_busy_iff := rfl
      rx_no_post := fun h => by cases h }

theorem Inv.after_rxStep {s t : State} {b : Byte} (hi : Inv s) (h : rxStep b s = .ok t) : Inv t := by
  obtain ⟨-, -, rfl⟩ | ⟨-, -, rfl⟩ | ⟨hb, hx, rfl⟩ | ⟨hb, hx, rfl⟩ | ⟨hb, hx, hd⟩ | ⟨hb, hx, rfl⟩ := rxStep_cases h
  · exact hi
  · exact { hi with
      rxdata_length := (freeFrom_data_length ..).trans hi.rxdata_length
      rxidx_lt := fun h => by cases h
      rx_ready_busy := fun h => by cases h.1
      rx_busy_iff := rfl
      rx_no_post := fun h => by cases h }
  · exact { hi with
      rxidx_lt := fun h => by cases h
      rx_busy_iff := hb
      rx_no_post := fun h => by cases h }
  · exact { hi with
      rxdata_length := (freeFrom_data_length ..).trans hi.rxdata_length
      rxlen_le := (clampLen_toNat s.cfg b).trans_le (Nat.min_le_right _ _)
      rxidx_le := Nat.zero_le _
      rxidx_lt := counter_zero_lt_of_data
      rx_busy_iff := hb.trans (checksum_or_data _).2.1.symm
      rx_no_post := (checksum_or_data _).2.2 }
  · obtain ⟨hl, rfl⟩ := rxDataStep_cases hd
    have hlt := hi.rxidx_lt hx
    exact { hi with
      rxdata_length := List.length_set.trans hi.rxdata_length
      rxidx_le := (counter_succ hlt).trans_le (hlt.trans_le hi.rxlen_le)
      rxidx_lt := counter_lt_of_data hlt
      rx_busy_iff := hb.trans (checksum_or_data _).2.1.symm
      rx_no_post := (checksum_or_data _).2.2 }
  · exact hi.after_rxChecksumStep b

/-- The oldest byte leaves the queue, whatever it does. -/
theorem Inv.after_byteReceived {s t : State} (hi : Inv s) (h : execByteReceived s = .next t) : Inv t := by
  obtain rfl | ⟨-, b, rest, hq, h⟩ := execByteReceived_cases h
  · exact hi
  · have shorter : rest.length ≤ s.cfg.rxqDepth := by
      have := hi.rxq_le
      rw [hq, List.length_cons] at this
      omega
    have taken : Inv { s with rxq := rest } := { hi with rxq_le := shorter }
    exact taken.after_rxStep h

/-! ### The sequencer -/

/-- The sequencer moves on, with the gate as its new state has it. -/
theorem Inv.pushGoto {s : State} (hi : Inv s) (running : s.pushState ≠ .idle) {p : PushState} {g d : Bool}
    (hg : g = gated p) (hd : p ≠ .idle → d = false) (hr : afterBusy p = true → s.txReady = true) :
    Inv { s with pushState := p, evtGate := g, pushDone := d } :=
  { hi with
    push_done_low := hd
    gate_iff := hg
    push_ready := hr
    push_no_fault := fun _ => hi.push_no_fault running
    push_open := fun _ => hi.push_open running }

theorem Inv.after_pushStep {s t : State} (hi : Inv s) (h : pushStep s = .ok t) : Inv t := by
  obtain rfl | ⟨hp, -, rfl⟩ | ⟨hp, hr, rfl⟩ | ⟨hp, -, rfl⟩ | ⟨-, hn, p, -, rfl⟩ | ⟨hp, rfl⟩ | ⟨hp, hr, rfl⟩ :=
    pushStep_cases h
  · exact hi
  · have running : s.pushState ≠ .idle := by simp [hp]
    have gate : s.evtGate = false := hi.gate_iff.trans (by rw [hp]; rfl)
    have moved : Inv { s with pushState := .waitBusyDone } :=
      hi.pushGoto running gate (fun _ => hi.push_done_low running) (fun h => by cases h)
    exact moved.after_sendAccepted (statusMessage s.cfg.typeBusy) rfl
  · have running : s.pushState ≠ .idle := by simp [hp]
    have moved : Inv { s with pushState := .render, evtGate := true } :=
      hi.pushGoto running rfl (fun _ => hi.push_done_low running) fun _ => hr
    exact { moved with ser_pix_le := Nat.zero_le _ }
  · have running : s.pushState ≠ .idle := by simp [hp]
    have gate : s.evtGate = true := hi.gate_iff.trans (by rw [hp]; rfl)
    exact hi.pushGoto running gate (fun _ => hi.push_done_low running) fun _ => hi.push_ready (by rw [hp]; rfl)
  · have inPix : s.serPix + 1 ≤ s.cfg.nLeds := lt_of_le_of_ne hi.ser_pix_le hn
    have ser_pix_le : (if s.serBit + 1 = 0 then s.serPix + 1 else s.serPix) ≤ s.cfg.nLeds := by split <;> omega
    exact { hi with ser_pix_le, line_low := rfl }
  · have running : s.pushState ≠ .idle := by simp [hp]
    have moved : Inv { s with pushState := .waitTx2, evtGate := false } :=
      hi.pushGoto running rfl (fun _ => hi.push_done_low running) fun _ => hi.push_ready (by rw [hp]; rfl)
    exact { moved with line_low := rfl }
  · have running : s.pushState ≠ .idle := by simp [hp]
    have gate : s.evtGate = false := hi.gate_iff.trans (by rw [hp]; rfl)
    have moved : Inv { s with pushState := .idle, pushDone := true } :=
      hi.pushGoto running gate (fun h => absurd rfl h) fun h => by cases h
    exact moved.after_sendAccepted (statusMessage s.cfg.typeReady) rfl

/-! ### The whole step -/

theorem Inv.after_changeClock {s : State} (hi : Inv s) (f : Nat) : Inv (changeClock f s) := by
  refine { hi with push_open := fun hp ht => ?_ }
  by_cases hf : f = s.fClk
  · simp only [changeClock_tuned, hf, beq_self_eq_true, Bool.and_true] at ht
    simp [hi.push_open hp ht]
  · simp [hf]

theorem Inv.after_effect {u : Turn} {s t : State} (hi : Inv s) (h : Effect u s t) : Inv t := by
  cases h with
  | nothing => exact hi
  | packet idle h => exact hi.after_execCommand (hi.pushState_of_not_held idle) h
  | send m idle ready => exact hi.after_sendAccepted m (by rw [hi.pushState_of_not_held idle]; rfl)
  | sendDropped busy => exact { hi with }
  | takeReceived => exact { hi with rx_ready_busy := fun h => by cases h.1 }
  | readStatus => exact { hi with }
  | byteSent h => exact hi.after_byteSent h
  | byteReceived h => exact hi.after_byteReceived h
  | rxArrive b room => exact { hi with rxq_le := List.length_append.trans_le room }
  | sequencer h => exact hi.after_pushStep h
  | reset => exact hi.after_resetBlock
  | clockChange f => exact hi.after_changeClock f
  | retune div cal => exact { hi with push_open := fun _ h => by cases h }

/-- Settles O49: the invariant does not speak of the turns and the requests, and each effect of a step keeps it. -/
theorem stepKeepsInvariant : Obligations.StepKeepsInvariant := by
  intro s t hi h
  obtain rfl | ⟨u, ts, q, -, h⟩ := step_effect h
  · exact hi
  · have taken : Inv { s with sched := ts, hostq := q } := { hi with }
    exact taken.after_effect h

/-! ### From the invariant nothing stops -/

theorem Inv.txStep_total {s : State} (hi : Inv s) : ∃ t, txStep { s with txInflight := false } = .ok t := by
  cases hx : s.txbuf.xfer with
  | data =>
    have hlt : s.txIdx.toNat < s.txbuf.data.length := by
      rw [hi.txdata_length]
      exact (hi.txidx_lt hx).trans_le hi.txlen_le
    exact ⟨_, txStep_data hx (List.getElem?_eq_getElem hlt)⟩
  | init | type | length | checksum | post | done => simp [txStep, hx]

theorem Inv.byteSent_total {s : State} (hi : Inv s) : ∃ t, execByteSent s = .next t := by
  unfold execByteSent
  split
  · exact hi.txStep_total.imp fun _ => finish_next.2
  · exact ⟨s, rfl⟩

theorem Inv.rxStep_total {s : State} (hi : Inv s) (b : Byte) (q : List Byte) :
    ∃ t, rxStep b { s with rxq := q } = .ok t := by
  unfold rxStep
  split
  · next hb =>
    have active : rxActive s.rxbuf.xfer = true := hi.rx_busy_iff.symm.trans hb
    cases hx : s.rxbuf.xfer with
    | type | length | checksum => simp
    | data =>
      have hlt : s.rxIdx.toNat < s.rxbuf.data.length := by
        rw [hi.rxdata_length]
        exact (hi.rxidx_lt hx).trans_le hi.rxlen_le
      simp [rxDataStep, bufWrite_of_lt b hlt]
    | init | post | done => simp [hx, rxActive] at active
  · split
    · exact ⟨_, rfl⟩
    · exact ⟨_, rfl⟩

theorem Inv.byteReceived_total {s : State} (hi : Inv s) : ∃ t, execByteReceived s = .next t := by
  unfold execByteReceived
  split
  · exact ⟨s, rfl⟩
  · split
    · exact ⟨s, rfl⟩
    · next b rest hq => exact (hi.rxStep_total b rest).imp fun _ => finish_next.2

/-- The render reads a pixel only while the position is below `N_LEDS` (R216). -/
theorem Inv.pushStep_total {s : State} (hi : Inv s) : ∃ t, pushStep s = .ok t := by
  cases hp : s.pushState with
  | render =>
    obtain hn | hn := hi.ser_pix_le.eq_or_lt
    · exact ⟨_, pushStep_render_done hp hn⟩
    · exact ⟨_, pushStep_render_bit hp hn (List.getElem?_eq_getElem (hi.pix_length ▸ hn))⟩
  | idle | waitTx1 | waitBusyDone | latch | waitTx2 => simp [pushStep, hp]

/-- Settles O48: the rows and requests never read past a space that has its length, and the two events find their counters
in the data spaces and the receiver in a state with a transition. -/
theorem everyInstructionCompletes : Obligations.EveryInstructionCompletes := by
  intro i s hi
  have row (k : Command) : ∃ t, execCommand k s = .next t := execCommand_total k s hi.pix_length
  cases i with
  | empty p => exact row (.empty p)
  | test p => exact row (.test p)
  | ctrlNone => exact row .ctrlNone
  | selblk b e => exact row (.selblk b e)
  | copy x d => exact row (.copy x d)
  | clear e => exact row (.clear e)
  | push e => exact row (.push e)
  | ctrlReserved k a => exact row (.ctrlReserved k a)
  | leddata g t => exact row (.leddata g t)
  | busy p => exact row (.busy p)
  | ready p => exact row (.ready p)
  | typeUnassigned t p => exact row (.typeUnassigned t p)
  | dispatch m =>
    obtain ⟨t, h⟩ := row (decodePacket s.cfg m)
    exact ⟨t, (execDispatch_eq m s).trans h⟩
  | send | sendDropped | takeReceived | readStatus | rxArrive => exact ⟨_, rfl⟩
  | byteSent => exact hi.byteSent_total
  | byteReceived => exact hi.byteReceived_total

theorem Inv.hostTurn_total {s : State} (hi : Inv s) : ∃ t, hostTurn s = .next t := by
  unfold hostTurn
  split
  · exact ⟨s, rfl⟩
  split
  · exact ⟨s, rfl⟩
  split
  · exact ⟨_, rfl⟩
  · exact everyInstructionCompletes _ _ { hi with }

theorem Inv.takeTurn_total {s : State} (hi : Inv s) (u : Turn) : ∃ t, takeTurn u s = .next t := by
  cases u with
  | host => exact hi.hostTurn_total
  | byteSent => exact hi.byteSent_total
  | byteReceived => exact hi.byteReceived_total
  | sequencer => exact hi.pushStep_total.imp fun _ => finish_next.2
  | rxArrive | reset | clockChange | retune => exact ⟨_, rfl⟩

/-- Settles O50: the parameters are valid, and from a state of the invariant no agent's turn stops. -/
theorem stepNeverStops : Obligations.StepNeverStops := by
  intro s hi
  rw [step, if_pos ((Params.ok_iff _).2 hi.cfg_valid)]
  unfold nextTurn
  split
  · exact ⟨s, rfl⟩
  · have taken : ∀ ts, Inv { s with sched := ts } := fun _ => { hi with }
    exact (taken _).takeTurn_total _

end Sys2Proof.Machine
end

section
/-! SUPPORT. The two byte events act on their own paths: what each reads and writes, said once (R261). -/

namespace Sys2Proof.Machine

/-! ### Events that are not enabled -/

/-- With nothing in flight, or the gate closed, no `byte_sent` is taken (R114, R120, R260). -/
theorem execByteSent_disabled {s : State} (h : ¬ (s.txInflight = true ∧ s.evtGate = false)) :
    execByteSent s = .next s := if_neg (by simpa using h)

theorem execByteReceived_gated {s : State} (h : s.evtGate = true) : execByteReceived s = .next s := if_pos h

theorem execByteReceived_empty {s : State} (h : s.rxq = []) : execByteReceived s = .next s := by
  cases hg : s.evtGate <;> simp [execByteReceived, hg, h]

theorem txStep_idle {s : State} (h : s.txbuf.xfer = .init ∨ s.txbuf.xfer = .done) : txStep s = .ok s := by
  obtain h | h := h <;> simp only [txStep, h]

/-- Settles O18: a closed gate, nothing in flight or nothing queued leaves an event untaken, and in Init and Done the
TX machine's step does nothing. -/
theorem eventsHeldOrAbsentDoNothing : Obligations.EventsHeldOrAbsentDoNothing :=
  ⟨fun _ hg => ⟨execByteSent_disabled (by simp [hg]), execByteReceived_gated hg⟩,
    fun _ hi => execByteSent_disabled (by simp [hi]),
    fun _ hi hg hx => execByteSent_of_txStep hi hg (txStep_idle hx),
    fun _ hq => execByteReceived_empty hq⟩

/-! ### The two paths -/

/-- The state with the TX path of another (R261: "TX writes `tx_*`, `txbuf` and `wire_tx`"); only a send writes
`tx_error`. -/
def State.withTx (r s : State) : State :=
  { r with
    txbuf := s.txbuf, txIdx := s.txIdx, txReady := s.txReady, txBusy := s.txBusy, txInflight := s.txInflight,
    wireTx := s.wireTx }

/-- The state with the RX path of another, the record of its errors and its draws among it. -/
def State.withRx (r s : State) : State :=
  { r with
    rxbuf := s.rxbuf, rxIdx := s.rxIdx, rxReady := s.rxReady, rxBusy := s.rxBusy, rxError := s.rxError,
    errKind := s.errKind, rxq := s.rxq, draws := s.draws }

/-! ### The TX event -/

theorem txStep_withTx (r s : State) : txStep (r.withTx s) = (txStep s).map r.withTx := by
  have hx : (r.withTx s).txbuf = s.txbuf := rfl
  have hn : (r.withTx s).txIdx = s.txIdx := rfl
  unfold txStep
  rw [hx]
  cases s.txbuf.xfer with
  | data =>
    unfold txDataStep
    rw [hx, hn]
    cases bufRead s.txbuf s.txIdx.toNat <;> rfl
  | init | type | length | checksum | post | done => rfl

/-- The event reads the TX path and the gate, and does the same to the path whatever the rest of the state. -/
theorem execByteSent_withTx {r s t : State} (gate : r.evtGate = s.evtGate) (h : execByteSent s = .next t) :
    execByteSent (r.withTx s) = .next (r.withTx t) := by
  by_cases he : s.txInflight = true ∧ s.evtGate = false
  · obtain ⟨hi, hg⟩ := he
    have step := finish_next.1 ((execByteSent_enabled hi hg).symm.trans h)
    have step' : txStep (r.withTx { s with txInflight := false }) = .ok (r.withTx t) := by
      rw [txStep_withTx, step]
      rfl
    exact (execByteSent_enabled (s := r.withTx s) hi (gate.trans hg)).trans (finish_next.2 step')
  · cases (execByteSent_disabled he).symm.trans h
    exact execByteSent_disabled (s := r.withTx s) fun ⟨hi, hg⟩ => he ⟨hi, gate.symm.trans hg⟩

/-- The event writes the TX path only. -/
theorem execByteSent_writes {s t : State} (h : execByteSent s = .next t) : t = s.withTx t :=
  Host.Outcome.next.inj (h.symm.trans (execByteSent_withTx (r := s) rfl h))

/-! ### The RX event -/

theorem rxStep_withRx (b : Byte) {r s : State} (cfg : r.cfg = s.cfg) :
    rxStep b (r.withRx s) = (rxStep b s).map r.withRx := by
  have cfg : (r.withRx s).cfg = s.cfg := cfg
  have busy : (r.withRx s).rxBusy = s.rxBusy := rfl
  have buf : (r.withRx s).rxbuf = s.rxbuf := rfl
  have idx : (r.withRx s).rxIdx = s.rxIdx := rfl
  unfold rxStep
  rw [busy, buf, cfg]
  cases s.rxBusy with
  | false =>
    by_cases hb : b = s.cfg.start <;> simp only [hb, if_true, if_false, Bool.false_eq_true] <;> rfl
  | true =>
    simp only [if_true]
    cases s.rxbuf.xfer with
    | length =>
      have clamp : clampLen (r.withRx s).cfg b = clampLen s.cfg b := congrArg (clampLen · b) cfg
      unfold rxLengthStep
      rw [clamp]
      rfl
    | data =>
      unfold rxDataStep
      rw [buf, idx]
      cases bufWrite s.rxbuf s.rxIdx.toNat b <;> rfl
    | checksum =>
      by_cases hb : b = rxChecksum s
      · have hb' : b = rxChecksum (r.withRx s) := hb
        rw [rxChecksumStep_match hb, rxChecksumStep_match hb']
        rfl
      · have hb' : b ≠ rxChecksum (r.withRx s) := hb
        rw [rxChecksumStep_mismatch hb, rxChecksumStep_mismatch hb']
        rfl
    | init | type | post | done => rfl

/-- The event reads the RX path, the gate and the parameters, and does the same to the path whatever the rest of the
state. -/
theorem execByteReceived_withRx {r s t : State} (gate : r.evtGate = s.evtGate) (cfg : r.cfg = s.cfg)
    (h : execByteReceived s = .next t) : execByteReceived (r.withRx s) = .next (r.withRx t) := by
  cases hg : s.evtGate with
  | true =>
    cases (execByteReceived_gated hg).symm.trans h
    exact execByteReceived_gated (s := r.withRx s) (gate.trans hg)
  | false =>
    cases hq : s.rxq with
    | nil =>
      cases (execByteReceived_empty hq).symm.trans h
      exact execByteReceived_empty (s := r.withRx s) hq
    | cons b rest =>
      have step := finish_next.1 ((execByteReceived_enabled hg hq).symm.trans h)
      have step' : rxStep b (r.withRx { s with rxq := rest }) = .ok (r.withRx t) := by
        rw [rxStep_withRx b (s := { s with rxq := rest }) cfg, step]
        rfl
      exact (execByteReceived_enabled (s := r.withRx s) (gate.trans hg) hq).trans (finish_next.2 step')

/-- The event writes the RX path only. -/
theorem execByteReceived_writes {s t : State} (h : execByteReceived s = .next t) : t = s.withRx t :=
  Host.Outcome.next.inj (h.symm.trans (execByteReceived_withRx (r := s) rfl rfl h))

/-- Settles O27: each event completes from a state of the invariant, writes its own path only, and does to it the same
after the other event as before. -/
theorem byteEventsCommute : Obligations.ByteEventsCommute := by
  intro s hi
  obtain ⟨t, ht⟩ := hi.byteSent_total
  obtain ⟨u, hu⟩ := hi.byteReceived_total
  have sent := execByteSent_writes ht
  have received := execByteReceived_writes hu
  have after_sent : execByteReceived t = .next (t.withRx u) := by
    have other : t.withRx s = t := by rw [sent]; rfl
    have := execByteReceived_withRx (r := t) (by rw [sent]; rfl) (by rw [sent]; rfl) hu
    rwa [other] at this
  have after_received : execByteSent u = .next (u.withTx t) := by
    have other : u.withTx s = u := by rw [received]; rfl
    have := execByteSent_withTx (r := u) (by rw [received]; rfl) ht
    rwa [other] at this
  have same : t.withRx u = u.withTx t := by
    rw [sent, received]
    rfl
  exact ⟨t, u, _, ht, after_sent, hu, after_received.trans (congrArg _ same.symm)⟩

end Sys2Proof.Machine
end

section
/-! SUPPORT. The proofs about every step: the histories (R47), the fatal condition (R33), the error record (R34), the
parameters (R9), the busy transmitter (R122) and the closed gate (R72, R74). -/

namespace Sys2Proof.Machine

/-! ### The histories -/

/-- Both histories of `t` begin with those of `s` (R47). -/
def HistoriesGrow (s t : State) : Prop :=
  (∃ xs, t.wireTx = s.wireTx ++ xs) ∧ (∃ ys, t.ledOut = s.ledOut ++ ys)

theorem historiesGrow_of_eq {s t : State} (hw : t.wireTx = s.wireTx) (hl : t.ledOut = s.ledOut) : HistoriesGrow s t :=
  ⟨⟨[], by simp [hw]⟩, [], by simp [hl]⟩

theorem historiesGrow_of_sendByte {s t : State} {b : Byte} (hw : t.wireTx = s.wireTx ++ [b]) (hl : t.ledOut = s.ledOut) :
    HistoriesGrow s t :=
  ⟨⟨_, hw⟩, [], by simp [hl]⟩

theorem historiesGrow_of_emitSym {s t : State} {ys : List LedSym} (hw : t.wireTx = s.wireTx)
    (hl : t.ledOut = s.ledOut ++ ys) : HistoriesGrow s t :=
  ⟨⟨[], by simp [hw]⟩, _, hl⟩

theorem execByteSent_historiesGrow {s t : State} (h : execByteSent s = .next t) : HistoriesGrow s t := by
  obtain rfl | ⟨-, -, ⟨-, rfl⟩ | ⟨-, rfl⟩ | ⟨-, rfl⟩ | ⟨-, hd⟩ | ⟨-, rfl⟩ | ⟨-, rfl⟩⟩ := execByteSent_cases h
  · exact historiesGrow_of_eq rfl rfl
  · exact historiesGrow_of_eq rfl rfl
  · exact historiesGrow_of_sendByte rfl rfl
  · exact historiesGrow_of_sendByte rfl rfl
  · obtain ⟨b, -, rfl⟩ := txDataStep_cases hd
    exact historiesGrow_of_sendByte rfl rfl
  · exact historiesGrow_of_sendByte rfl rfl
  · exact historiesGrow_of_eq rfl rfl

theorem pushStep_historiesGrow {s t : State} (h : pushStep s = .ok t) : HistoriesGrow s t := by
  obtain rfl | ⟨-, -, rfl⟩ | ⟨-, -, rfl⟩ | ⟨-, -, rfl⟩ | ⟨-, -, p, -, rfl⟩ | ⟨-, rfl⟩ | ⟨-, -, rfl⟩ := pushStep_cases h
  · exact historiesGrow_of_eq rfl rfl
  · exact historiesGrow_of_sendByte rfl rfl
  · exact historiesGrow_of_eq rfl rfl
  · exact historiesGrow_of_eq rfl rfl
  · exact historiesGrow_of_emitSym rfl rfl
  · exact historiesGrow_of_emitSym rfl rfl
  · exact historiesGrow_of_sendByte rfl rfl

/-- A packet writes neither path, nor the LED output, nor the platform. -/
theorem execCommand_frame {k : Command} {s t : State} (h : execCommand k s = .next t) :
    SameTx s t ∧ SameRx s t ∧ t.ledOut = s.ledOut ∧ SamePlatform s t := by
  obtain rfl | ⟨-, ⟨b, rfl⟩ | ⟨p, -, rfl⟩ | ⟨p, -, rfl⟩ | rfl | ⟨b, rfl⟩⟩ := execCommand_cases h
  all_goals exact ⟨⟨rfl, rfl, rfl, rfl, rfl, rfl, rfl⟩, ⟨rfl, rfl, rfl, rfl, rfl, rfl⟩, rfl, ⟨rfl, rfl, rfl, rfl, rfl⟩⟩

theorem Effect.historiesGrow {u : Turn} {s t : State} (h : Effect u s t) (hr : u ≠ .reset) : HistoriesGrow s t := by
  cases h with
  | packet _ h =>
    obtain ⟨htx, -, hled, -⟩ := execCommand_frame h
    exact historiesGrow_of_eq htx.wireTx hled
  | send m => exact historiesGrow_of_sendByte rfl rfl
  | byteSent h => exact execByteSent_historiesGrow h
  | byteReceived h =>
    rw [execByteReceived_writes h]
    exact historiesGrow_of_eq rfl rfl
  | sequencer h => exact pushStep_historiesGrow h
  | reset => exact absurd rfl hr
  | nothing | sendDropped | takeReceived | readStatus | rxArrive | clockChange | retune =>
    exact historiesGrow_of_eq rfl rfl

/-- Settles O51: of the effects only a byte sent and a symbol emitted write a history, each at its end. -/
theorem historiesOnlyGrow : Obligations.HistoriesOnlyGrow := by
  intro s t h hr
  obtain rfl | ⟨u, ts, q, hs, h⟩ := step_effect h
  · exact ⟨⟨[], by simp⟩, ⟨[], by simp⟩⟩
  · exact h.historiesGrow (by simpa [hs] using hr)

/-! ### The transmitter while a frame goes out -/

/-- What R122 gives the TX event path alone while a frame goes out: the buffer, the counter, the byte in flight and the
wire. -/
structure SameSender (s t : State) : Prop where
  txbuf : t.txbuf = s.txbuf
  txIdx : t.txIdx = s.txIdx
  txInflight : t.txInflight = s.txInflight
  wireTx : t.wireTx = s.wireTx

/-- While `tx_ready = 0` the sequencer sends nothing. -/
theorem pushStep_sameSender {s t : State} (h : pushStep s = .ok t) (hr : s.txReady = false) : SameSender s t := by
  obtain rfl | ⟨-, ready, -⟩ | ⟨-, -, rfl⟩ | ⟨-, -, rfl⟩ | ⟨-, -, p, -, rfl⟩ | ⟨-, rfl⟩ | ⟨-, ready, -⟩ :=
    pushStep_cases h
  · exact ⟨rfl, rfl, rfl, rfl⟩
  · simp [hr] at ready
  · exact ⟨rfl, rfl, rfl, rfl⟩
  · exact ⟨rfl, rfl, rfl, rfl⟩
  · exact ⟨rfl, rfl, rfl, rfl⟩
  · exact ⟨rfl, rfl, rfl, rfl⟩
  · simp [hr] at ready

theorem Effect.sameSender {u : Turn} {s t : State} (h : Effect u s t) (hr : s.txReady = false) (hb : u ≠ .byteSent)
    (hu : u ≠ .reset) : SameSender s t := by
  cases h with
  | packet _ h =>
    obtain ⟨htx, -⟩ := execCommand_frame h
    exact ⟨htx.txbuf, htx.txIdx, htx.txInflight, htx.wireTx⟩
  | send m _ ready => simp [hr] at ready
  | byteSent => exact absurd rfl hb
  | byteReceived h =>
    rw [execByteReceived_writes h]
    exact ⟨rfl, rfl, rfl, rfl⟩
  | sequencer h => exact pushStep_sameSender h hr
  | reset => exact absurd rfl hu
  | nothing | sendDropped | takeReceived | readStatus | rxArrive | clockChange | retune => exact ⟨rfl, rfl, rfl, rfl⟩

/-- Settles O54: `tx_busy = 1` means `tx_ready = 0`, so no send is accepted, and nothing else writes what the sender
uses. -/
theorem busyTransmitterOwnsItsBuffer : Obligations.BusyTransmitterOwnsItsBuffer := by
  intro s t hi h busy hb hr
  have notReady : s.txReady = false := by rw [hi.tx_ready_busy, busy]; rfl
  obtain rfl | ⟨u, ts, q, hs, h⟩ := step_effect h
  · exact ⟨rfl, rfl, rfl, rfl⟩
  · obtain ⟨h1, h2, h3, h4⟩ := h.sameSender notReady (by simpa [hs] using hb) (by simpa [hs] using hr)
    exact ⟨h1, h2, h3, h4⟩

/-! ### The fatal condition -/

theorem Effect.sameDispatcher {u : Turn} {s t : State} (h : Effect u s t) (hc : s.cmdFault = true) (hu : u ≠ .reset) :
    SameDispatcher s t := by
  cases h with
  | packet _ h =>
    cases (execCommand_refused _ hc).symm.trans h
    exact ⟨rfl, rfl, rfl, rfl⟩
  | byteSent h => exact execByteSent_sameDispatcher h
  | byteReceived h => exact execByteReceived_sameDispatcher h
  | sequencer h => exact pushStep_sameDispatcher h
  | reset => exact absurd rfl hu
  | nothing | send | sendDropped | takeReceived | readStatus | rxArrive | clockChange | retune =>
    exact ⟨rfl, rfl, rfl, rfl⟩

/-- Settles O55: a packet is refused, and nothing else but reset writes what the dispatcher owns. -/
theorem cmdFaultIsSticky : Obligations.CmdFaultIsSticky := by
  intro s t h hr hc
  obtain rfl | ⟨u, ts, q, hs, h⟩ := step_effect h
  · exact ⟨rfl, rfl, rfl, rfl⟩
  · obtain ⟨h1, h2, h3, h4⟩ := h.sameDispatcher hc (by simpa [hs] using hr)
    exact ⟨h1, h2, h3, h4⟩

/-! ### The error record -/

/-- `err_kind` is as it was, or is a kind whose flag is 1 (R256). -/
def ErrKindRaised (s t : State) : Prop :=
  t.errKind = s.errKind ∨ (t.errKind = .checksumMismatch ∧ t.rxError = true) ∨
  (t.errKind = .sendWhileBusy ∧ t.txError = true) ∨ (t.errKind = .indexOutOfRange ∧ t.cmdFault = true)

theorem rxStep_errKindRaised {b : Byte} {s t : State} (h : rxStep b s = .ok t) : ErrKindRaised s t := by
  obtain ⟨-, -, rfl⟩ | ⟨-, -, rfl⟩ | ⟨-, -, rfl⟩ | ⟨-, -, rfl⟩ | ⟨-, -, hd⟩ | ⟨-, -, rfl⟩ := rxStep_cases h
  · exact .inl rfl
  · exact .inl rfl
  · exact .inl rfl
  · exact .inl rfl
  · obtain ⟨-, rfl⟩ := rxDataStep_cases hd
    exact .inl rfl
  · by_cases hb : b = rxChecksum s
    · rw [rxChecksumStep_match hb]
      exact .inl rfl
    · rw [rxChecksumStep_mismatch hb]
      exact .inr (.inl ⟨rfl, rfl⟩)

theorem Effect.errKindRaised {u : Turn} {s t : State} (h : Effect u s t) (hu : u ≠ .reset) : ErrKindRaised s t := by
  cases h with
  | packet _ h =>
    obtain rfl | ⟨-, ⟨b, rfl⟩ | ⟨p, -, rfl⟩ | ⟨p, -, rfl⟩ | rfl | ⟨b, rfl⟩⟩ := execCommand_cases h
    · exact .inl rfl
    · exact .inl rfl
    · exact .inl rfl
    · exact .inr (.inr (.inr ⟨rfl, rfl⟩))
    · exact .inl rfl
    · exact .inl rfl
  | sendDropped => exact .inr (.inr (.inl ⟨rfl, rfl⟩))
  | byteSent h =>
    rw [execByteSent_writes h]
    exact .inl rfl
  | byteReceived h =>
    obtain rfl | ⟨-, b, rest, -, h⟩ := execByteReceived_cases h
    · exact .inl rfl
    · exact rxStep_errKindRaised (s := { s with rxq := rest }) h
  | sequencer h =>
    obtain rfl | ⟨-, -, rfl⟩ | ⟨-, -, rfl⟩ | ⟨-, -, rfl⟩ | ⟨-, -, p, -, rfl⟩ | ⟨-, rfl⟩ | ⟨-, -, rfl⟩ :=
      pushStep_cases h <;> exact .inl rfl
  | reset => exact absurd rfl hu
  | nothing | send | takeReceived | readStatus | rxArrive | clockChange | retune => exact .inl rfl

/-- Settles O56: only a packet, a dropped send and a CHECKSUM byte record a kind, each with its flag. -/
theorem errKindFollowsRaise : Obligations.ErrKindFollowsRaise := by
  intro s t h hr
  obtain rfl | ⟨u, ts, q, hs, h⟩ := step_effect h
  · exact .inl rfl
  · exact h.errKindRaised (by simpa [hs] using hr)

/-! ### The closed gate -/

theorem hostTurn_held {s : State} (h : hostHeld s = true) : hostTurn s = .next s := if_pos h

/-- The gate is closed only while a push runs, and then the host is held. -/
theorem Inv.hostHeld_of_gate {s : State} (hi : Inv s) (hg : s.evtGate = true) : hostHeld s = true := by
  by_contra held
  rw [hi.gate_iff, hi.pushState_of_not_held (by simpa using held)] at hg
  cases hg

/-- Settles O59: the host is held, both events are held, and an arriving byte touches only the queue. -/
theorem gateShieldsRender : Obligations.GateShieldsRender := by
  rintro s t hi hg h (hu | hu | hu | ⟨b, hu⟩)
  · have h := step_takes_head h hu
    cases h.symm.trans (hostTurn_held (s := { s with sched := s.sched.tail }) (hi.hostHeld_of_gate hg))
    exact ⟨[], by simp⟩
  · have h := step_takes_head h hu
    cases h.symm.trans (execByteSent_disabled (s := { s with sched := s.sched.tail }) (by simp [hg]))
    exact ⟨[], by simp⟩
  · have h := step_takes_head h hu
    cases h.symm.trans (execByteReceived_gated (s := { s with sched := s.sched.tail }) hg)
    exact ⟨[], by simp⟩
  · obtain rfl := Host.Outcome.next.inj (step_takes_head h hu)
    split
    · exact ⟨[b], rfl⟩
    · exact ⟨[], by simp⟩

/-! ### The parameters -/

theorem Effect.cfg {u : Turn} {s t : State} (h : Effect u s t) : t.cfg = s.cfg := by
  cases h with
  | packet _ h =>
    obtain ⟨-, -, -, hplatform⟩ := execCommand_frame h
    exact hplatform.cfg
  | byteSent h => exact execByteSent_writes h ▸ rfl
  | byteReceived h => exact execByteReceived_writes h ▸ rfl
  | sequencer h =>
    obtain rfl | ⟨-, -, rfl⟩ | ⟨-, -, rfl⟩ | ⟨-, -, rfl⟩ | ⟨-, -, p, -, rfl⟩ | ⟨-, rfl⟩ | ⟨-, -, rfl⟩ :=
      pushStep_cases h <;> rfl
  | nothing | send | sendDropped | takeReceived | readStatus | rxArrive | reset | clockChange | retune => rfl

theorem finish_not_refused (e : Except Fault State) (r : Refusal) : finish e ≠ .refused r := by
  cases e <;> simp [finish]

/-- Every row is an effect behind the entry test. -/
theorem execCommand_admitted (k : Command) (s : State) : ∃ f, execCommand k s = admitted f s := by
  cases k <;> simp only [execCommand, execSelblk, execCopy, execClear, execPush, execBusy, execReady] <;> exact ⟨_, rfl⟩

theorem execCommand_not_refused (k : Command) (s : State) (r : Refusal) : execCommand k s ≠ .refused r := by
  obtain ⟨f, hf⟩ := execCommand_admitted k s
  rw [hf, admitted]
  split
  · simp
  · exact finish_not_refused (f s) r

theorem execByteSent_not_refused (s : State) (r : Refusal) : execByteSent s ≠ .refused r := by
  unfold execByteSent
  split
  · exact finish_not_refused _ r
  · simp

theorem execByteReceived_not_refused (s : State) (r : Refusal) : execByteReceived s ≠ .refused r := by
  unfold execByteReceived
  split
  · simp
  split
  · simp
  · exact finish_not_refused _ r

/-- Every instruction has a meaning (R100). -/
theorem exec_not_refused (i : Instr) (s : State) (r : Refusal) : exec i s ≠ .refused r := by
  have row (k : Command) : exec k.toInstr s ≠ .refused r := exec_toInstr k s ▸ execCommand_not_refused k s r
  cases i with
  | empty p => exact row (.empty p)
  | test p => exact row (.test p)
  | ctrlNone => exact row .ctrlNone
  | selblk b e => exact row (.selblk b e)
  | copy x d => exact row (.copy x d)
  | clear e => exact row (.clear e)
  | push e => exact row (.push e)
  | ctrlReserved k a => exact row (.ctrlReserved k a)
  | leddata g t => exact row (.leddata g t)
  | busy p => exact row (.busy p)
  | ready p => exact row (.ready p)
  | typeUnassigned t p => exact row (.typeUnassigned t p)
  | dispatch m =>
    simp only [exec, execDispatch_eq]
    exact execCommand_not_refused _ s r
  | send | sendDropped | takeReceived | readStatus | rxArrive => exact nofun
  | byteSent => exact execByteSent_not_refused s r
  | byteReceived => exact execByteReceived_not_refused s r

theorem hostTurn_not_refused (s : State) (r : Refusal) : hostTurn s ≠ .refused r := by
  unfold hostTurn
  split
  · simp
  split
  · simp
  split
  · simp
  · exact exec_not_refused _ _ r

theorem takeTurn_not_refused (u : Turn) (s : State) (r : Refusal) : takeTurn u s ≠ .refused r := by
  cases u with
  | host => exact hostTurn_not_refused s r
  | byteSent => exact execByteSent_not_refused s r
  | byteReceived => exact execByteReceived_not_refused s r
  | sequencer => exact finish_not_refused _ r
  | rxArrive | reset | clockChange | retune => exact nofun

/-- Settles O60: no effect writes the parameters, and a step is refused exactly by the test at its head, which is R9's
constraints. -/
theorem parametersAreFixed : Obligations.ParametersAreFixed := by
  refine ⟨fun s t h => ?_, fun s => ?_⟩
  · obtain rfl | ⟨u, ts, q, -, h⟩ := step_effect h
    · rfl
    · exact h.cfg
  · rw [← Params.ok_iff]
    constructor
    · intro h hc
      rw [step, if_pos hc, nextTurn] at h
      split at h
      · cases h
      · exact takeTurn_not_refused _ _ _ h
    · exact fun hc => if_neg hc

/-! ### The pixels beyond an index byte's reach -/

/-- No index byte names a pixel at index 256 or above (R86). -/
theorem index_lt (s : State) (x : Byte) : index s x < 256 :=
  (resolve_toNat_le_indexByte s.activeBlock x).trans_lt x.isLt

theorem pixWrite_high {i j : Nat} {p : Pixel} {s t : State} (h : pixWrite i p s = .ok t) (hi : i < 256) (hj : 256 ≤ j) :
    t.pix[j]? = s.pix[j]? := by
  obtain ⟨-, rfl⟩ := pixWrite_cases h
  exact List.getElem?_set_ne (by omega)

theorem copyTo_high {v : Pixel} {ds : List Byte} {s t : State} {j : Nat} (h : copyTo v ds s = .ok t) (hj : 256 ≤ j) :
    t.pix[j]? = s.pix[j]? := by
  induction ds generalizing s with
  | nil =>
    cases h
    rfl
  | cons d ds ih =>
    rw [copyTo] at h
    split at h
    · split at h
      · cases h
      · next u hu => exact (ih h).trans (pixWrite_high hu (index_lt s d) hj)
    · cases h
      rfl

theorem writeGroups_high {gs : List Group} {s t : State} {j : Nat} (h : writeGroups gs s = .ok t) (hj : 256 ≤ j) :
    t.pix[j]? = s.pix[j]? := by
  induction gs generalizing s with
  | nil =>
    cases h
    rfl
  | cons g gs ih =>
    rw [writeGroups] at h
    split at h
    · split at h
      · cases h
      · next u hu => exact (ih h).trans (pixWrite_high hu (index_lt s g.index) hj)
    · cases h
      rfl

theorem copyFrom_high {x : Byte} {ds : List Byte} {s t : State} {j : Nat} (h : copyFrom x ds s = .ok t) (hj : 256 ≤ j) :
    t.pix[j]? = s.pix[j]? := by
  unfold copyFrom at h
  split at h
  · split at h
    · cases h
    · exact copyTo_high h hj
  · cases h
    rfl

theorem execCommand_high {k : Command} {s t : State} {j : Nat} (h : execCommand k s = .next t) (hk : ∀ e, k ≠ .clear e)
    (hj : 256 ≤ j) : t.pix[j]? = s.pix[j]? := by
  cases k with
  | clear e => exact absurd rfl (hk e)
  | copy x d =>
    simp only [execCommand, execCopy] at h
    obtain ⟨-, rfl⟩ | ⟨-, h⟩ := admitted_cases h
    · rfl
    · cases x with
      | none =>
        cases h
        rfl
      | some x => exact copyFrom_high h hj
  | leddata g t =>
    simp only [execCommand, execLeddata] at h
    obtain ⟨-, rfl⟩ | ⟨-, h⟩ := admitted_cases h
    · rfl
    · exact writeGroups_high h hj
  | selblk b e =>
    simp only [execCommand, execSelblk] at h
    obtain ⟨-, rfl⟩ | ⟨-, h⟩ := admitted_cases h
    · rfl
    · cases b <;> cases h <;> rfl
  | push | busy | ready =>
    simp only [execCommand, execPush, execBusy, execReady] at h
    obtain ⟨-, rfl⟩ | ⟨-, h⟩ := admitted_cases h
    · rfl
    · cases h
      rfl
  | empty | test | ctrlNone | ctrlReserved | typeUnassigned =>
    cases (admitted_ok_self s).symm.trans h
    rfl

/-- Settles O53: Copy and LED_DATA write where an index byte resolves, below 256, and the other rows but Clear write no
pixel. -/
theorem highPixelsAreOutOfReach : Obligations.HighPixelsAreOutOfReach := fun s _ m _ hj hk h =>
  execCommand_high ((execDispatch_eq m s).symm.trans h) hk hj

end Sys2Proof.Machine
end

section
/-! SUPPORT. The proofs about the sequencer's waits and sends (R211, R214, R219), the Push that starts it (R178), and its
open output (R292, R227). -/

namespace Sys2Proof.Machine

/-! ### Push -/

theorem execPush_ok (e : List Byte) {s : State} (hc : s.cmdFault = false) :
    execPush e s = .next { s with pushDone := false, pushState := .waitTx1, ledOpen := !s.tuned } := by
  unfold execPush
  exact admitted_ok hc rfl

/-- Settles O35: past the entry test the row writes the two fields and the flag of log 13, and in WaitTx1 with
`push_done = 0` the host is held. -/
theorem pushStartsSequencer : Obligations.PushStartsSequencer := fun _ e hc => ⟨execPush_ok e hc, rfl⟩

/-! ### Waiting for the transport, and sending -/

/-- Settles O42: each of the three waiting states tests `tx_ready`, and Idle has no step. -/
theorem sequencerWaitsForTransport : Obligations.SequencerWaitsForTransport := by
  rintro s (hp | ⟨hr, hp | hp | hp⟩)
  · simp only [pushStep, hp]
  · simp [pushStep, hp, pushWaitTx1, hr]
  · simp [pushStep, hp, pushWaitBusyDone, hr]
  · simp [pushStep, hp, pushWaitTx2, hr]

theorem pushStep_waitTx1 {s : State} (hp : s.pushState = .waitTx1) (hr : s.txReady = true) :
    pushStep s = .ok { sendAccepted (statusMessage s.cfg.typeBusy) s with pushState := .waitBusyDone } := by
  simp only [pushStep, hp, pushWaitTx1, if_pos hr]

theorem pushStep_waitTx2 {s : State} (hp : s.pushState = .waitTx2) (hr : s.txReady = true) :
    pushStep s = .ok { sendAccepted (statusMessage s.cfg.typeReady) s with pushState := .idle, pushDone := true } := by
  simp only [pushStep, hp, pushWaitTx2, if_pos hr]

/-- A status packet has length 0 and no data, and its checksum is its TYPE (R110, R220). -/
theorem sendBuffer_status (ty : Byte) (s : State) :
    sendBuffer (statusMessage ty) s = ⟨ty, 0, freeTail s.draws 0 s.txbuf.data.length, ty, .type⟩ := by
  have len : (statusMessage ty).len s.cfg = 0 := by simp [statusMessage, Message.len]
  have noData : (statusMessage ty).payload s.cfg = [] := List.eq_nil_of_length_eq_zero (by simp [len])
  have length : clampLen s.cfg (statusMessage ty).length = 0 := clampLen_zero s.cfg
  rw [sendBuffer, noData, len, length, List.nil_append]
  simp [statusMessage]

theorem sendAccepted_status (ty : Byte) (s : State) :
    sendAccepted (statusMessage ty) s = { s with
      txbuf := ⟨ty, 0, freeTail s.draws 0 s.txbuf.data.length, ty, .type⟩, txError := false, txReady := false,
      txBusy := true, txInflight := true, wireTx := s.wireTx ++ [s.cfg.start], draws := s.draws + 1 } := by
  rw [sendAccepted, sendBuffer_status]
  rfl

/-- Settles O38: with `tx_ready = 1` each of the two states sends, and a status packet leaves every data byte free. -/
theorem sequencerSendsBusyAndReady : Obligations.SequencerSendsBusyAndReady := by
  intro s hr
  have free : (freeTail s.draws 0 s.txbuf.data.length).length = s.txbuf.data.length := freeTail_length ..
  exact ⟨fun hp => ⟨_, free, by rw [pushStep_waitTx1 hp hr, sendAccepted_status]⟩,
    fun hp => ⟨_, free, by rw [pushStep_waitTx2 hp hr, sendAccepted_status]⟩⟩

/-! ### The open output -/

theorem changeClock_changed {f : Nat} {s : State} (h : f ≠ s.fClk) :
    changeClock f s = { s with fClk := f, tuned := false, ledOpen := true } := by
  simp [changeClock, h]

theorem changeClock_same (s : State) : changeClock s.fClk s = s := by
  simp [changeClock]

/-- While the output is open a step's symbol is drawn (R292). -/
theorem emitSym_open (y : LedSym) {s : State} (h : s.ledOpen = true) :
    emitSym y s =
      { s with ledOut := s.ledOut ++ Config.freeSymbols s.draws, draws := s.draws + 1, ledLine := .low } := by
  simp [emitSym, h]

theorem serBit_wraps_iff (k : Fin 24) : k + 1 = 0 ↔ k.val = 23 := by
  revert k
  decide

/-- An open output stays open to the end of the push: only a new Push and reset close it. -/
theorem Effect.ledOpen {u : Turn} {s t : State} (h : Effect u s t) (ho : s.ledOpen = true) (hu : u ≠ .reset)
    (held : u = .host → hostHeld s = true) : t.ledOpen = true := by
  cases h with
  | packet idle => simp [held rfl] at idle
  | byteSent h =>
    rw [execByteSent_writes h]
    exact ho
  | byteReceived h =>
    rw [execByteReceived_writes h]
    exact ho
  | sequencer h =>
    obtain rfl | ⟨-, -, rfl⟩ | ⟨-, -, rfl⟩ | ⟨-, -, rfl⟩ | ⟨-, -, p, -, rfl⟩ | ⟨-, rfl⟩ | ⟨-, -, rfl⟩ :=
      pushStep_cases h <;> exact ho
  | reset => exact absurd rfl hu
  | clockChange f => simp [ho]
  | nothing | send | sendDropped | takeReceived | readStatus | rxArrive | retune => exact ho

/-- Settles O41: the two turns of the platform and the Push are computed; no effect closes an open output while a push
runs, since the host is held; and each step of the render and the latch draws what it adds. -/
theorem mistunedOutputIsOpen : Obligations.MistunedOutputIsOpen := by
  refine ⟨fun s ts f hc hs => ⟨fun hf => ?_, fun hf => ?_⟩, fun s ts d c hc hs => step_turn hc hs,
    fun s t e hn hc h => ?_, fun s t h ho hp hr hd => ?_, fun s ho => ⟨fun p hp hn hx => ?_, fun hp => ?_⟩⟩
  · exact (step_turn hc hs).trans (congrArg _ (changeClock_changed (s := { s with sched := ts }) hf))
  · subst hf
    exact (step_turn hc hs).trans (congrArg _ (changeClock_same { s with sched := ts }))
  · cases (execPush_ok e hc).symm.trans h
    simp [hn]
  · obtain rfl | ⟨u, ts, q, hs, h⟩ := step_effect h
    · exact ho
    · rw [hs, List.head?_cons] at hr hd
      refine h.ledOpen ho (fun hu => hr (congrArg some hu)) fun hu => ?_
      simp [hostHeld, hp, hd (congrArg some hu)]
  · rw [pushStep_render_bit hp hn hx, emitBit, emitSym_open _ ho]
    simp only [advance, serBit_wraps_iff]
  · rw [pushStep_latch hp, pushLatch, emitLatch, emitSym_open _ ho]

end Sys2Proof.Machine
end

section
/-! SUPPORT. The proofs that nothing but `read_status` reads `ok_to_send` (R36). -/

namespace Sys2Proof.Machine

/-- The state with another value of the advisory flag. -/
def State.withOk (b : Bool) (s : State) : State := { s with okToSend := b }

theorem pixWrite_withOk (i : Nat) (p : Pixel) (b : Bool) (s : State) :
    pixWrite i p (s.withOk b) = (pixWrite i p s).map (State.withOk b) := by
  by_cases h : i < s.pix.length
  · rw [pixWrite_of_lt p h, pixWrite_of_lt (s := s.withOk b) p h]
    rfl
  · rw [pixWrite, pixWrite, if_neg h, if_neg (show ¬ i < (s.withOk b).pix.length from h)]
    rfl

theorem copyTo_withOk (v : Pixel) (ds : List Byte) (b : Bool) (s : State) :
    copyTo v ds (s.withOk b) = (copyTo v ds s).map (State.withOk b) := by
  induction ds generalizing s with
  | nil => rfl
  | cons d ds ih =>
    have range : inRange (s.withOk b) d = inRange s d := rfl
    have write : pixWrite (index (s.withOk b) d) v (s.withOk b) = (pixWrite (index s d) v s).map (State.withOk b) :=
      pixWrite_withOk (index s d) v b s
    rw [copyTo, copyTo, range, write]
    split
    · cases pixWrite (index s d) v s with
      | ok u => exact ih u
      | error f => rfl
    · rfl

theorem writeGroups_withOk (gs : List Group) (b : Bool) (s : State) :
    writeGroups gs (s.withOk b) = (writeGroups gs s).map (State.withOk b) := by
  induction gs generalizing s with
  | nil => rfl
  | cons g gs ih =>
    have range : inRange (s.withOk b) g.index = inRange s g.index := rfl
    have write : pixWrite (index (s.withOk b) g.index) (groupPixel g) (s.withOk b) =
        (pixWrite (index s g.index) (groupPixel g) s).map (State.withOk b) :=
      pixWrite_withOk (index s g.index) (groupPixel g) b s
    rw [writeGroups, writeGroups, range, write]
    split
    · cases pixWrite (index s g.index) (groupPixel g) s with
      | ok u => exact ih u
      | error f => rfl
    · rfl

theorem copyFrom_withOk (x : Byte) (ds : List Byte) (b : Bool) (s : State) :
    copyFrom x ds (s.withOk b) = (copyFrom x ds s).map (State.withOk b) := by
  have range : inRange (s.withOk b) x = inRange s x := rfl
  have read : pixRead (s.withOk b) (index (s.withOk b) x) = pixRead s (index s x) := rfl
  rw [copyFrom, copyFrom, range, read]
  split
  · cases pixRead s (index s x) with
    | ok v => exact copyTo_withOk v ds b s
    | error f => rfl
  · rfl

theorem admitted_withOk {f : State → Except Fault State} {b : Bool} {s : State}
    (hf : f (s.withOk b) = (f s).map (State.withOk b)) {t : State} (h : admitted f s = .next t) :
    admitted f (s.withOk b) = .next (t.withOk b) := by
  obtain ⟨hc, rfl⟩ | ⟨hc, h⟩ := admitted_cases h
  · exact if_pos hc
  · exact admitted_ok hc (hf.trans (h ▸ rfl))

/-- A packet reads the flag nowhere, and writes it with a value of its own or not at all (R171, R172). -/
theorem execCommand_withOk {k : Command} {s t : State} (b : Bool) (h : execCommand k s = .next t) :
    ∃ c, execCommand k (s.withOk b) = .next (t.withOk c) := by
  cases hc : s.cmdFault with
  | true =>
    cases (execCommand_refused k hc).symm.trans h
    exact ⟨b, execCommand_refused k (s := s.withOk b) hc⟩
  | false =>
    cases k with
    | busy p =>
      cases (execBusy_ok p hc).symm.trans h
      exact ⟨false, execBusy_ok p (s := s.withOk b) hc⟩
    | ready p =>
      cases (execReady_ok p hc).symm.trans h
      exact ⟨true, execReady_ok p (s := s.withOk b) hc⟩
    | copy x d =>
      cases x with
      | none => exact ⟨b, admitted_withOk rfl h⟩
      | some x => exact ⟨b, admitted_withOk (copyFrom_withOk x d b s) h⟩
    | leddata g tr => exact ⟨b, admitted_withOk (writeGroups_withOk g b s) h⟩
    | selblk x e =>
      cases x with
      | none => exact ⟨b, admitted_withOk rfl h⟩
      | some x =>
        cases (execSelblk_some x e hc).symm.trans h
        exact ⟨b, execSelblk_some x e (s := s.withOk b) hc⟩
    | clear e =>
      cases (execClear_ok e hc).symm.trans h
      exact ⟨b, execClear_ok e (s := s.withOk b) hc⟩
    | push e =>
      cases (execPush_ok e hc).symm.trans h
      exact ⟨b, execPush_ok e (s := s.withOk b) hc⟩
    | empty | test | ctrlNone | ctrlReserved | typeUnassigned => exact ⟨b, admitted_withOk rfl h⟩

theorem execByteSent_withOk {s t : State} (b : Bool) (h : execByteSent s = .next t) :
    execByteSent (s.withOk b) = .next (t.withOk b) := by
  have same := execByteSent_withTx (r := s.withOk b) (s := s) rfl h
  rwa [show (s.withOk b).withTx t = t.withOk b by rw [execByteSent_writes h]; rfl] at same

theorem execByteReceived_withOk {s t : State} (b : Bool) (h : execByteReceived s = .next t) :
    execByteReceived (s.withOk b) = .next (t.withOk b) := by
  have same := execByteReceived_withRx (r := s.withOk b) (s := s) rfl rfl h
  rwa [show (s.withOk b).withRx t = t.withOk b by rw [execByteReceived_writes h]; rfl] at same

theorem execSend_withOk (m : Message) (b : Bool) {s t : State} (h : execSend m s = .next t) :
    execSend m (s.withOk b) = .next (t.withOk b) := by
  cases hr : s.txReady with
  | true =>
    cases (execSend_accepted m hr).symm.trans h
    exact execSend_accepted m (s := s.withOk b) hr
  | false =>
    cases (execSend_dropped m hr).symm.trans h
    exact execSend_dropped m (s := s.withOk b) hr

theorem execSendDropped_eq (m : Message) (s : State) : execSendDropped m s = execSend m s := by
  cases hr : s.txReady <;> simp [execSendDropped, execSend, hr]

theorem execRxArrive_withOk (x : Byte) (b : Bool) {s t : State} (h : execRxArrive x s = .next t) :
    execRxArrive x (s.withOk b) = .next (t.withOk b) := by
  by_cases room : s.rxq.length < s.cfg.rxqDepth
  · cases (execRxArrive_queued x room).symm.trans h
    exact execRxArrive_queued x (s := s.withOk b) room
  · cases (execRxArrive_lost x (Nat.le_of_not_lt room)).symm.trans h
    exact execRxArrive_lost x (s := s.withOk b) (Nat.le_of_not_lt room)

theorem exec_withOk {i : Instr} {s t : State} (b : Bool) (hi : i ≠ .readStatus) (h : exec i s = .next t) :
    ∃ c, exec i (s.withOk b) = .next (t.withOk c) := by
  have row (k : Command) (h : exec k.toInstr s = .next t) : ∃ c, exec k.toInstr (s.withOk b) = .next (t.withOk c) := by
    rw [exec_toInstr] at h ⊢
    exact execCommand_withOk b h
  cases i with
  | empty p => exact row (.empty p) h
  | test p => exact row (.test p) h
  | ctrlNone => exact row .ctrlNone h
  | selblk x e => exact row (.selblk x e) h
  | copy x d => exact row (.copy x d) h
  | clear e => exact row (.clear e) h
  | push e => exact row (.push e) h
  | ctrlReserved k a => exact row (.ctrlReserved k a) h
  | leddata g t => exact row (.leddata g t) h
  | busy p => exact row (.busy p) h
  | ready p => exact row (.ready p) h
  | typeUnassigned t p => exact row (.typeUnassigned t p) h
  | dispatch m =>
    obtain ⟨c, hc⟩ := execCommand_withOk b ((execDispatch_eq m s).symm.trans h)
    exact ⟨c, (execDispatch_eq m (s.withOk b)).trans hc⟩
  | send m => exact ⟨b, execSend_withOk m b h⟩
  | sendDropped m =>
    exact ⟨b, (execSendDropped_eq m _).trans (execSend_withOk m b ((execSendDropped_eq m s).symm.trans h))⟩
  | takeReceived =>
    cases h
    exact ⟨b, rfl⟩
  | readStatus => exact absurd rfl hi
  | byteSent => exact ⟨b, execByteSent_withOk b h⟩
  | byteReceived => exact ⟨b, execByteReceived_withOk b h⟩
  | rxArrive x => exact ⟨b, execRxArrive_withOk x b h⟩

theorem pushRender_withOk (b : Bool) (s : State) : pushRender (s.withOk b) = (pushRender s).map (State.withOk b) := by
  have position : (s.withOk b).serPix = s.serPix := rfl
  have read : pixRead (s.withOk b) s.serPix = pixRead s s.serPix := rfl
  rw [pushRender, pushRender, position, read]
  by_cases hn : s.serPix = s.cfg.nLeds
  · rw [if_pos hn, if_pos (show s.serPix = (s.withOk b).cfg.nLeds from hn)]
    rfl
  · rw [if_neg hn, if_neg (show ¬ s.serPix = (s.withOk b).cfg.nLeds from hn)]
    cases pixRead s s.serPix <;> rfl

/-- The two sends of the sequencer among them: `ok_to_send = 0` holds neither BUSY nor READY back (R36). -/
theorem pushStep_withOk {s t : State} (b : Bool) (h : pushStep s = .ok t) :
    pushStep (s.withOk b) = .ok (t.withOk b) := by
  have waits (hw : s.pushState = .idle ∨ (s.txReady = false ∧
      (s.pushState = .waitTx1 ∨ s.pushState = .waitBusyDone ∨ s.pushState = .waitTx2))) :
      pushStep (s.withOk b) = .ok (t.withOk b) := by
    cases (sequencerWaitsForTransport s hw).symm.trans h
    exact sequencerWaitsForTransport (s.withOk b) hw
  cases hp : s.pushState with
  | idle => exact waits (.inl hp)
  | waitTx1 =>
    cases hr : s.txReady with
    | false => exact waits (.inr ⟨hr, .inl hp⟩)
    | true =>
      cases (pushStep_waitTx1 hp hr).symm.trans h
      exact pushStep_waitTx1 (s := s.withOk b) hp hr
  | waitBusyDone =>
    cases hr : s.txReady with
    | false => exact waits (.inr ⟨hr, .inr (.inl hp)⟩)
    | true =>
      cases (pushStep_waitBusyDone hp hr).symm.trans h
      exact pushStep_waitBusyDone (s := s.withOk b) hp hr
  | render =>
    have bit : pushStep (s.withOk b) = (pushRender s).map (State.withOk b) := by
      rw [← pushRender_withOk]
      simp only [pushStep, show (s.withOk b).pushState = .render from hp]
    rw [bit, show pushRender s = .ok t by simpa only [pushStep, hp] using h]
    rfl
  | latch =>
    cases (pushStep_latch hp).symm.trans h
    exact pushStep_latch (s := s.withOk b) hp
  | waitTx2 =>
    cases hr : s.txReady with
    | false => exact waits (.inr ⟨hr, .inr (.inr hp)⟩)
    | true =>
      cases (pushStep_waitTx2 hp hr).symm.trans h
      exact pushStep_waitTx2 (s := s.withOk b) hp hr

theorem hostTurn_noRequest {s : State} (hq : s.hostq = []) : hostTurn s = .next s := by
  cases held : hostHeld s <;> simp [hostTurn, held, hq]

/-- A request that is none is dropped (R76). -/
theorem hostTurn_dropped {s : State} {r : HostRequest} {q : List HostRequest} (held : hostHeld s = false)
    (hq : s.hostq = r :: q) (hd : decodeRequest s.txReady s.takeResult r = none) :
    hostTurn s = .next { s with hostq := q } := by
  simp only [hostTurn, held, hq, hd, Bool.false_eq_true, if_false]

/-- The host's next request is `read_status` exactly if its instruction is. -/
theorem decodeRequest_readStatus {ready : Bool} {p : Option Packet} {r : HostRequest}
    (h : decodeRequest ready p r = some .readStatus) : r = .readStatus := by
  cases r with
  | send m => cases ready <;> simp [decodeRequest] at h
  | takeReceived => simp [decodeRequest] at h
  | dispatch m => simp [decodeRequest] at h
  | dispatchTaken => cases p <;> simp [decodeRequest] at h
  | readStatus => rfl

theorem hostTurn_withOk {s t : State} (b : Bool) (hq : s.hostq.head? ≠ some .readStatus) (h : hostTurn s = .next t) :
    ∃ c, hostTurn (s.withOk b) = .next (t.withOk c) := by
  cases held : hostHeld s with
  | true =>
    cases (hostTurn_held held).symm.trans h
    exact ⟨b, hostTurn_held (s := s.withOk b) held⟩
  | false =>
    cases hs : s.hostq with
    | nil =>
      cases (hostTurn_noRequest hs).symm.trans h
      exact ⟨b, hostTurn_noRequest (s := s.withOk b) hs⟩
    | cons r q =>
      cases hd : decodeRequest s.txReady s.takeResult r with
      | none =>
        cases (hostTurn_dropped held hs hd).symm.trans h
        exact ⟨b, hostTurn_dropped (s := s.withOk b) held hs hd⟩
      | some i =>
        have notStatus : i ≠ .readStatus := by
          rintro rfl
          exact hq (by rw [hs, decodeRequest_readStatus hd]; rfl)
        obtain ⟨c, hc⟩ := exec_withOk b notStatus ((hostTurn_issue held hs hd).symm.trans h)
        exact ⟨c, (hostTurn_issue (s := s.withOk b) held hs hd).trans hc⟩

theorem takeTurn_withOk {u : Turn} {s t : State} (b : Bool) (hu : u ≠ .host ∨ s.hostq.head? ≠ some .readStatus)
    (h : takeTurn u s = .next t) : ∃ c, takeTurn u (s.withOk b) = .next (t.withOk c) := by
  cases u with
  | host => exact hostTurn_withOk b (hu.resolve_left (absurd rfl)) h
  | byteSent => exact ⟨b, execByteSent_withOk b h⟩
  | byteReceived => exact ⟨b, execByteReceived_withOk b h⟩
  | rxArrive x => exact ⟨b, execRxArrive_withOk x b h⟩
  | sequencer => exact ⟨b, finish_next.2 (pushStep_withOk b (finish_next.1 h))⟩
  | reset =>
    cases h
    exact ⟨true, rfl⟩
  | clockChange | retune =>
    cases h
    exact ⟨b, rfl⟩

/-- Settles O58: every instruction but `read_status`, the sequencer's step, and so every turn without `read_status`, does
the same whatever the flag. -/
theorem okToSendIsAdvisory : Obligations.OkToSendIsAdvisory := by
  refine ⟨fun i s t b hi h => exec_withOk b hi h, fun s t b h => pushStep_withOk b h, fun s t b hu h => ?_⟩
  obtain ⟨hc, ⟨hs, rfl⟩ | ⟨u, ts, hs, h⟩⟩ := step_cases h
  · exact ⟨b, by simp [step, nextTurn, hc, hs]⟩
  · have noStatus : u ≠ .host ∨ ({ s with sched := ts } : State).hostq.head? ≠ some .readStatus := by
      simpa [hs] using hu
    obtain ⟨c, h⟩ := takeTurn_withOk b noStatus h
    exact ⟨c, (step_turn (s := s.withOk b) hc hs).trans h⟩

end Sys2Proof.Machine
end

section
/-! SUPPORT. The proofs about what a step runs (R250, R265, R266), reset (R280), the dispatch (R170, R182) and the status
views (R48). -/

namespace Sys2Proof.Machine

/-! ### Reset and the step -/

/-- Settles O3: the turn is taken off the schedule, and reset leaves that. -/
theorem resetTurnRestoresResetState : Obligations.ResetTurnRestoresResetState := fun _ _ hc hs => step_turn hc hs

theorem step_host_issues {s : State} {ts : List Turn} {r : HostRequest} {q : List HostRequest} {i : Instr}
    (hc : s.cfg.ok = true) (hs : s.sched = .host :: ts) (held : hostHeld s = false) (hq : s.hostq = r :: q)
    (hd : decodeRequest s.txReady s.takeResult r = some i) : step s = exec i { s with sched := ts, hostq := q } :=
  (step_turn hc hs).trans (hostTurn_issue (s := { s with sched := ts }) held hq hd)

/-- Settles O4: a step is the turn at the head of the schedule, the host's is its oldest request's instruction, and the
requests decode by definition. -/
theorem stepRunsDecodedInstruction : Obligations.StepRunsDecodedInstruction := by
  refine ⟨fun s ts r q i hc hs held hq hd => step_host_issues hc hs held hq hd, fun s ts hc hs => step_turn hc hs,
    fun s ts hc hs => step_turn hc hs, fun s ts b hc hs => step_turn hc hs, fun s ts hc hs => step_turn hc hs,
    fun ready p m => ⟨rfl, rfl, rfl, rfl, rfl, rfl⟩, fun s ts q p hc hs held hq hp => ?_,
    fun s ts q hc hs held hq hp => ?_⟩
  · exact step_host_issues hc hs held hq (by rw [hp]; rfl)
  · have noRequest : decodeRequest s.txReady s.takeResult .dispatchTaken = none := by rw [hp]; rfl
    exact (step_turn hc hs).trans (hostTurn_dropped (s := { s with sched := ts }) held hq noRequest)

/-- Settles O5: a push that runs holds the host. -/
theorem heldHostIssuesNothing : Obligations.HeldHostIssuesNothing := by
  intro s ts hc hs hp hd
  have held : hostHeld s = true := by simp [hostHeld, hp, hd]
  exact (step_turn hc hs).trans (hostTurn_held (s := { s with sched := ts }) held)

/-! ### Dispatch -/

/-- Settles O6: `dispatch` and the row it decodes to are one meaning, refused under the fault and complete without. -/
theorem dispatchRunsDecodedRow : Obligations.DispatchRunsDecodedRow := by
  have row (m : Message) (s : State) : exec (.dispatch m) s = exec (decodePacket s.cfg m).toInstr s :=
    (execDispatch_eq m s).trans (exec_toInstr _ s).symm
  refine ⟨fun m s _ => row m s, fun m s hc => (execDispatch_eq m s).trans (execCommand_refused _ hc),
    fun k s hc => (exec_toInstr k s).trans (execCommand_refused k hc), fun m s hp _ => ?_⟩
  obtain ⟨t, ht⟩ := execCommand_total (decodePacket s.cfg m) s hp
  rw [row, exec_toInstr]
  exact ⟨t, ht, ht⟩

/-- With every index in range no row records an error. -/
theorem execCommand_inRange {s : State} (k : Command) (hc : s.cmdFault = false) (hp : s.pix.length = s.cfg.nLeds)
    (hx : ∀ x, index s x < s.cfg.nLeds) :
    ∃ t, execCommand k s = .next t ∧ t.cmdFault = false ∧ t.errKind = s.errKind := by
  cases k with
  | copy x d =>
    cases x with
    | none => exact ⟨s, execCopy_none d hc, hc, rfl⟩
    | some x =>
      obtain ⟨p, h, -⟩ := copyWritesDestinations.1 s x d hc hp (hx x) fun y _ => hx y
      exact ⟨_, h, hc, rfl⟩
  | leddata g tr =>
    obtain ⟨p, h, -⟩ := ledDataWritesGroups.1 s g tr hc hp fun y _ => hx y.index
    exact ⟨_, h, hc, rfl⟩
  | selblk b e =>
    cases b with
    | none => exact ⟨s, execSelblk_none e hc, hc, rfl⟩
    | some b => exact ⟨_, execSelblk_some b e hc, hc, rfl⟩
  | clear e => exact ⟨_, execClear_ok e hc, hc, rfl⟩
  | push e => exact ⟨_, execPush_ok e hc, hc, rfl⟩
  | busy p => exact ⟨_, execBusy_ok p hc, hc, rfl⟩
  | ready p => exact ⟨_, execReady_ok p hc, hc, rfl⟩
  | empty | test | ctrlNone | ctrlReserved | typeUnassigned => exact ⟨s, admitted_ok_self s, hc, rfl⟩

/-- Settles O37: a resolved index is at most 255 and at most the mask, which in a state of the invariant is its low
byte (R38). -/
theorem smallMaskNeverFaults : Obligations.SmallMaskNeverFaults := by
  intro s m hi hc hsmall
  have lowByte : (s.activeBlock &&& 0x00FF).toNat = s.activeBlock.toNat := by
    have := hi.block_high
    rw [BitVec.toNat_and]
    exact (Nat.and_two_pow_sub_one_eq_mod s.activeBlock.toNat 8).trans (Nat.mod_eq_of_lt this)
  have inRange (x : Byte) : index s x < s.cfg.nLeds := by
    obtain hn | hn := hsmall
    · exact (index_lt s x).trans_le hn
    · exact (resolve_toNat_le_mask s.activeBlock x).trans_lt (lowByte ▸ hn)
  obtain ⟨t, ht, hf, hk⟩ := execCommand_inRange (decodePacket s.cfg m) hc hi.pix_length inRange
  exact ⟨inRange, t, (execDispatch_eq m s).trans ht, hf, hk⟩

/-! ### The status views -/

/-- A flag placed at a bit is at that bit and no other. -/
theorem flagAt_getLsbD {i j : Nat} (hi : i < 8) (hj : j < 8) (b : Bool) :
    (flagAt i b).getLsbD j = (decide (j = i) && b) := by
  have table : ∀ (i j : Fin 8) (b : Bool), (flagAt i.val b).getLsbD j.val = (decide (j.val = i.val) && b) := by decide
  exact table ⟨i, hi⟩ ⟨j, hj⟩ b

/-- The flags of STATUS in the order of its bits (R48). -/
def statusFlags (s : State) : List Bool :=
  [s.txReady, s.txBusy, s.txError, s.rxReady, s.rxBusy, s.rxError, s.cmdFault, s.okToSend]

theorem status_getLsbD (s : State) {j : Nat} (hj : j < 8) : (statusFlags s)[j]? = some ((status s).getLsbD j) := by
  simp only [status, BitVec.getLsbD_or, flagAt_getLsbD _ hj, Nat.reduceLT]
  match j, hj with
  | 0, _ | 1, _ | 2, _ | 3, _ | 4, _ | 5, _ | 6, _ | 7, _ => simp [statusFlags]

/-- Settles O28: bit `i` of STATUS is the flag placed there, and ERRKIND is the kind's code. -/
theorem readStatusReturnsViews : Obligations.ReadStatusReturnsViews := by
  intro s
  have bit (j : Nat) (hj : j < 8) {b : Bool} (hb : (statusFlags s)[j]? = some b) : (status s).getLsbD j = b :=
    Option.some.inj ((status_getLsbD s hj).symm.trans hb)
  have kind (k : ErrKind) (h : s.errKind = k) : errKindView s = k.code.zeroExtend 8 := h ▸ rfl
  exact ⟨status s, errKindView s, rfl, bit 0 (by decide) rfl, bit 1 (by decide) rfl, bit 2 (by decide) rfl,
    bit 3 (by decide) rfl, bit 4 (by decide) rfl, bit 5 (by decide) rfl, bit 6 (by decide) rfl, bit 7 (by decide) rfl,
    kind .none, kind .checksumMismatch, kind .sendWhileBusy, kind .indexOutOfRange⟩

end Sys2Proof.Machine
end

section
/-! SUPPORT. The proofs about a whole frame on the transmit side: the send that is accepted (R112), and the events after
it (R114 to R119, R121). -/

namespace Sys2Proof.Machine

/-! ### The send -/

/-- Settles O13: the bytes stored are the payload, which `m` supplies in full, and then free ones up to the capacity. -/
theorem sendAcceptedStartsFrame : Obligations.SendAcceptedStartsFrame := by
  intro m s hr hw hl
  have payload : m.data.take (min m.length.toNat s.cfg.maxData) = m.payload s.cfg := (Message.payload_of_wf hw).symm
  have size : (m.payload s.cfg).length = min m.length.toNat s.cfg.maxData := m.payload_length s.cfg
  refine ⟨m.payload s.cfg ++ freeTail s.draws (m.len s.cfg) s.txbuf.data.length, ?_, ?_, ?_⟩
  · rw [List.length_append, m.payload_length, freeTail_length, hl]
    exact Nat.add_sub_of_le (m.len_le s.cfg)
  · rw [← size, List.take_left, size, payload]
  · have stored := execSend_accepted m hr
    rw [payload]
    rintro i (rfl | rfl)
    · exact stored
    · exact (execSendDropped_eq m s).trans stored

/-! ### Turns of the TX event -/

theorem run_byteSent {s t : State} {ts : List Turn} (n : Nat) (hc : s.cfg.ok = true) (hi : s.txInflight = true)
    (hg : s.evtGate = false) (hs : s.sched = .byteSent :: ts)
    (h : txStep { s with txInflight := false, sched := ts } = .ok t) : core.run (n + 1) s = core.run n t :=
  run_turn n hc hs (execByteSent_of_txStep (s := { s with sched := ts }) hi hg h)

/-- Within the frame in the TX buffer of `s`: a byte in flight, the machine in state `x`, its counter at `i`. -/
def midFrame (s : State) (x : XferState) (i : Byte) (wire : List Byte) (ts : List Turn) : State :=
  { s with txbuf := { s.txbuf with xfer := x }, txIdx := i, txInflight := true, wireTx := wire, sched := ts }

/-- After the frame in the TX buffer of `s` (R119). -/
def afterFrame (s : State) (wire : List Byte) (ts : List Turn) : State :=
  { s with
    txbuf := { s.txbuf with xfer := .done }, txIdx := s.txbuf.length, txInflight := false, txBusy := false,
    txReady := true, wireTx := wire, sched := ts }

section
variable {s : State} (hc : s.cfg.ok = true) (hg : s.evtGate = false)
include hc hg

theorem run_txType (n : Nat) (i : Byte) (wire : List Byte) (ts : List Turn) :
    core.run (n + 1) (midFrame s .type i wire (.byteSent :: ts)) =
      core.run n (midFrame s .length i (wire ++ [s.txbuf.type]) ts) :=
  run_byteSent n hc rfl hg rfl (txStep_type rfl)

/-- Data is entered only when there is data (R116). -/
theorem run_txLength (n : Nat) (i : Byte) (wire : List Byte) (ts : List Turn) :
    core.run (n + 1) (midFrame s .length i wire (.byteSent :: ts)) =
      core.run n (midFrame s (if s.txbuf.length = 0 then .checksum else .data) 0 (wire ++ [s.txbuf.length]) ts) :=
  run_byteSent n hc rfl hg rfl rfl

theorem run_txByte (n : Nat) {i : Byte} (hi : i.toNat < s.txbuf.data.length) (wire : List Byte) (ts : List Turn) :
    core.run (n + 1) (midFrame s .data i wire (.byteSent :: ts)) =
      core.run n (midFrame s (if i + 1 = s.txbuf.length then .checksum else .data) (i + 1)
        (wire ++ [s.txbuf.data[i.toNat]]) ts) :=
  run_byteSent n hc rfl hg rfl (txStep_data rfl (List.getElem?_eq_getElem hi))

theorem run_txChecksum (n : Nat) (i : Byte) (wire : List Byte) (ts : List Turn) :
    core.run (n + 1) (midFrame s .checksum i wire (.byteSent :: ts)) =
      core.run n (midFrame s .post i (wire ++ [s.txbuf.checksum]) ts) :=
  run_byteSent n hc rfl hg rfl (txStep_checksum rfl)

theorem run_txPost (n : Nat) (wire : List Byte) (ts : List Turn) :
    core.run (n + 1) (midFrame s .post s.txbuf.length wire (.byteSent :: ts)) = core.run n (afterFrame s wire ts) :=
  run_byteSent n hc rfl hg rfl (txStep_post rfl)

/-- The data bytes from the counter on go out one by one, and the counter ends at the length (R117). -/
theorem run_txData (m n : Nat) {i : Byte} (hn : i.toNat + (n + 1) = s.txbuf.length.toNat)
    (hl : s.txbuf.length.toNat ≤ s.txbuf.data.length) (wire : List Byte) (ts : List Turn) :
    core.run (m + (n + 1)) (midFrame s .data i wire (List.replicate (n + 1) .byteSent ++ ts)) =
      core.run m (midFrame s .checksum s.txbuf.length (wire ++ (s.txbuf.data.drop i.toNat).take (n + 1)) ts) := by
  induction n generalizing i wire with
  | zero =>
    have hi : i.toNat < s.txbuf.data.length := by omega
    have last : i + 1 = s.txbuf.length :=
      BitVec.eq_of_toNat_eq ((counter_succ (l := s.txbuf.length) (by omega)).trans hn)
    have byte : (s.txbuf.data.drop i.toNat).take (0 + 1) = [s.txbuf.data[i.toNat]] := by
      rw [List.drop_eq_getElem_cons hi, List.take_succ_cons, List.take_zero]
    have sent := run_txByte hc hg m hi wire ts
    rw [if_pos last, last, ← byte] at sent
    exact sent
  | succ n ih =>
    have hi : i.toNat < s.txbuf.data.length := by omega
    have next : (i + 1).toNat = i.toNat + 1 := counter_succ (l := s.txbuf.length) (by omega)
    have more : i + 1 ≠ s.txbuf.length := fun h => by
      rw [h] at next
      omega
    have bytes : wire ++ (s.txbuf.data.drop i.toNat).take (n + 1 + 1) =
        wire ++ [s.txbuf.data[i.toNat]] ++ (s.txbuf.data.drop (i + 1).toNat).take (n + 1) := by
      rw [List.drop_eq_getElem_cons hi, List.take_succ_cons, next, List.append_assoc, List.singleton_append]
    have sent := run_txByte hc hg (m + (n + 1)) hi wire (List.replicate (n + 1) .byteSent ++ ts)
    rw [if_neg more] at sent
    rw [bytes]
    exact sent.trans (ih (by omega) (wire ++ [s.txbuf.data[i.toNat]]))

/-- The data bytes of the frame, if there are any. -/
theorem run_txPayload (m : Nat) (hl : s.txbuf.length.toNat ≤ s.txbuf.data.length) (wire : List Byte) (ts : List Turn) :
    core.run (m + s.txbuf.length.toNat)
        (midFrame s (if s.txbuf.length = 0 then .checksum else .data) 0 wire
          (List.replicate s.txbuf.length.toNat .byteSent ++ ts)) =
      core.run m (midFrame s .checksum s.txbuf.length (wire ++ s.txbuf.data.take s.txbuf.length.toNat) ts) := by
  by_cases hz : s.txbuf.length = 0
  · simp [hz]
  · obtain ⟨k, hk⟩ := Nat.exists_eq_succ_of_ne_zero fun h => hz (BitVec.eq_of_toNat_eq h)
    rw [if_neg hz, hk]
    exact run_txData hc hg m k (i := 0) (by simp [hk]) hl wire ts

/-- A frame whose START is in flight goes out whole, and leaves the TX machine in Done, ready (R121). -/
theorem run_frame (m : Nat) (hl : s.txbuf.length.toNat ≤ s.txbuf.data.length) (i : Byte) (wire : List Byte)
    (ts : List Turn) :
    core.run (m + (s.txbuf.length.toNat + 4))
        (midFrame s .type i wire (List.replicate (s.txbuf.length.toNat + 4) .byteSent ++ ts)) =
      core.run m (afterFrame s (wire ++ s.txbuf.type :: s.txbuf.length ::
        (s.txbuf.data.take s.txbuf.length.toNat ++ [s.txbuf.checksum])) ts) := by
  have turns : List.replicate (s.txbuf.length.toNat + 4) Turn.byteSent ++ ts =
      .byteSent :: .byteSent :: (List.replicate s.txbuf.length.toNat .byteSent ++ .byteSent :: .byteSent :: ts) := by
    rw [show s.txbuf.length.toNat + 4 = 2 + (s.txbuf.length.toNat + 2) by omega, List.replicate_add, List.replicate_add]
    simp [List.replicate_succ]
  have steps : m + (s.txbuf.length.toNat + 4) = m + 2 + s.txbuf.length.toNat + 1 + 1 := by omega
  have bytes : wire ++ s.txbuf.type :: s.txbuf.length :: (s.txbuf.data.take s.txbuf.length.toNat ++ [s.txbuf.checksum]) =
      wire ++ [s.txbuf.type] ++ [s.txbuf.length] ++ s.txbuf.data.take s.txbuf.length.toNat ++ [s.txbuf.checksum] := by
    simp
  rw [turns, steps, bytes]
  calc
    _ = _ := run_txType hc hg _ i wire _
    _ = _ := run_txLength hc hg _ i _ _
    _ = _ := run_txPayload hc hg (m + 2) hl _ _
    _ = _ := run_txChecksum hc hg (m + 1) _ _ _
    _ = _ := run_txPost hc hg m _ ts

end

/-- The bytes of the frame in the buffer of an accepted send, with START before them, are the frame of the message. -/
theorem run_sentFrame (k : Nat) (m : Message) {s : State} {ts : List Turn} (hc : s.cfg.ok = true)
    (hg : s.evtGate = false) (hl : s.txbuf.data.length = s.cfg.maxData)
    (hs : s.sched = List.replicate (m.len s.cfg + 4) .byteSent ++ ts) :
    core.run (k + (m.len s.cfg + 4)) (sendAccepted m s) =
      core.run k (afterFrame (sendAccepted m s) (s.wireTx ++ encodeFrame s.cfg m) ts) := by
  have length : (sendAccepted m s).txbuf.length.toNat = m.len s.cfg := clampLen_toNat s.cfg m.length
  have size : (sendAccepted m s).txbuf.data.length = s.cfg.maxData :=
    (sendBuffer_data_length m s (hl ▸ m.len_le s.cfg)).trans hl
  have data : (sendAccepted m s).txbuf.data.take (m.len s.cfg) = m.payload s.cfg := by
    have := List.take_left (l₁ := m.payload s.cfg) (l₂ := freeTail s.draws (m.len s.cfg) s.txbuf.data.length)
    rwa [m.payload_length] at this
  have sent := run_frame (s := sendAccepted m s) hc hg k (by rw [length, size]; exact m.len_le s.cfg) s.txIdx
    (s.wireTx ++ [s.cfg.start]) ts
  rw [length, data, ← hs, List.append_assoc] at sent
  exact sent

/-- A turn in which the host issues a request. -/
theorem run_host {s t : State} {ts : List Turn} {r : HostRequest} {q : List HostRequest} {i : Instr} (n : Nat)
    (hc : s.cfg.ok = true) (hs : s.sched = .host :: ts) (held : hostHeld s = false) (hq : s.hostq = r :: q)
    (hd : decodeRequest s.txReady s.takeResult r = some i) (h : exec i { s with sched := ts, hostq := q } = .next t) :
    core.run (n + 1) s = core.run n t :=
  run_succ n ((step_host_issues hc hs held hq hd).trans h)

/-- Settles O19: the host's turn accepts the send, and the events after it put the message's frame on the wire, which is
the one stated because `m` supplies its data. -/
theorem sendPutsWholeFrameOnWire : Obligations.SendPutsWholeFrameOnWire := by
  intro s m q ts hi hp hr hw hq hs
  have hc : s.cfg.ok = true := (Params.ok_iff _).2 hi.cfg_valid
  have hg : s.evtGate = false := by rw [hi.gate_iff, hp]; rfl
  have held : hostHeld s = false := by simp [hostHeld, hp]
  have payload : m.data.take (min m.length.toNat s.cfg.maxData) = m.payload s.cfg := (Message.payload_of_wf hw).symm
  have accepted := run_host (i := .send m) (m.len s.cfg + 4) hc hs held hq (by simp [decodeRequest, hr])
    (execSend_accepted m (s := { s with sched := List.replicate (m.len s.cfg + 4) .byteSent ++ ts, hostq := q }) hr)
  have sent := run_sentFrame 0 m
    (s := { s with sched := List.replicate (m.len s.cfg + 4) .byteSent ++ ts, hostq := q }) hc hg hi.txdata_length rfl
  rw [Nat.zero_add] at sent
  rw [payload]
  exact ⟨_, accepted.trans sent, rfl, rfl, rfl, rfl, rfl, rfl, rfl, ⟨rfl, rfl, rfl, rfl, rfl, rfl⟩, ⟨rfl, rfl, rfl, rfl⟩,
    ⟨rfl, rfl, rfl, rfl, rfl, rfl, rfl, rfl⟩, ⟨rfl, rfl, rfl, rfl, rfl⟩, rfl, rfl⟩

end Sys2Proof.Machine
end

section
/-! SUPPORT. The proofs about a whole frame on the receive side: `take_received` (R148), the first three bytes (R141 to
R144), and the frame delivered byte by byte (R150). -/

namespace Sys2Proof.Machine

/-- Settles O25: the meaning is that state, by definition. -/
theorem takeReceivedReturnsCopy : Obligations.TakeReceivedReturnsCopy := fun _ => rfl

/-! ### The transitions on START, TYPE and LENGTH -/

theorem rxStep_discard {b : Byte} {s : State} (hb : s.rxBusy = false) (h : b ≠ s.cfg.start) : rxStep b s = .ok s := by
  simp [rxStep, hb, h]

theorem rxStep_start {s : State} (hb : s.rxBusy = false) : rxStep s.cfg.start s = .ok (rxFrameStart s) := by
  simp [rxStep, hb]

theorem rxStep_type (b : Byte) {s : State} (hb : s.rxBusy = true) (hx : s.rxbuf.xfer = .type) :
    rxStep b s = .ok (rxTypeStep b s) := by
  simp only [rxStep, hb, hx, if_true]

theorem rxStep_length (b : Byte) {s : State} (hb : s.rxBusy = true) (hx : s.rxbuf.xfer = .length) :
    rxStep b s = .ok (rxLengthStep b s) := by
  simp only [rxStep, hb, hx, if_true]

/-- Settles O21: the idle receiver tests for START alone, and the free bytes keep those below the length (R24). -/
theorem idleByteStartsFrameOrIsDiscarded : Obligations.IdleByteStartsFrameOrIsDiscarded := by
  intro s b q hg hq hb
  refine ⟨fun h => execByteReceived_of_rxStep hg hq (rxStep_discard (s := { s with rxq := q }) hb h), ?_⟩
  rintro rfl
  exact ⟨_, freeFrom_data_length .., freeFrom_data_take ..,
    execByteReceived_of_rxStep hg hq (rxStep_start (s := { s with rxq := q }) hb)⟩

/-- Settles O22: TYPE is stored unread, and LENGTH clamped, with the bytes below it kept (R24). -/
theorem headerBytesAreStored : Obligations.HeaderBytesAreStored := by
  intro s b q hg hq hb
  refine ⟨fun hx => execByteReceived_of_rxStep hg hq (rxStep_type b hb hx), fun hx _ hl => ?_⟩
  have clamp : (clampLen s.cfg b).toNat = min b.toNat s.cfg.maxData := clampLen_toNat s.cfg b
  refine ⟨(freeFrom s.draws (clampLen s.cfg b).toNat s.rxbuf).data, (freeFrom_data_length ..).trans hl, ?_, ?_⟩
  · rw [← clamp]
    exact freeFrom_data_take ..
  · have stored : exec .byteReceived s = .next (rxLengthStep b { s with rxq := q }) :=
      execByteReceived_of_rxStep hg hq (rxStep_length b hb hx)
    simp only [← clampLen_eq_zero]
    exact stored

/-! ### The turns in which one byte arrives and is delivered -/

theorem run_receive {s t : State} {b : Byte} {ts : List Turn} (n : Nat) (hc : s.cfg.ok = true) (hg : s.evtGate = false)
    (hq : s.rxq = []) (hs : s.sched = .rxArrive b :: .byteReceived :: ts)
    (h : rxStep b { s with rxq := [], sched := ts } = .ok t) : core.run (n + 2) s = core.run n t := by
  have room : s.rxq.length < s.cfg.rxqDepth := by
    rw [hq]
    exact ((Params.ok_iff _).1 hc).rxqDepth_pos
  have arrived := run_turn (n + 1) hc hs (execRxArrive_queued b (s := { s with sched := .byteReceived :: ts }) room)
  rw [hq] at arrived
  exact arrived.trans (run_turn n hc rfl (execByteReceived_of_rxStep
    (s := { s with rxq := [b], sched := ts }) hg rfl h))

/-- Within a frame that comes in on `s`: the buffer, its counter, the draws so far, and an empty queue. -/
def inFrame (s : State) (buf : Packet) (i : Byte) (draws : Nat) (ts : List Turn) : State :=
  { s with
    rxbuf := buf, rxIdx := i, rxBusy := true, rxReady := false, rxError := false, draws := draws, rxq := [], sched := ts }

theorem take_set_succ {α : Type} {l : List α} {i : Nat} (h : i < l.length) (x : α) :
    (l.set i x).take (i + 1) = l.take i ++ [x] := by
  rw [List.take_succ_eq_append_getElem (by simpa using h), List.take_set_of_le (Nat.le_refl i), List.getElem_set_self]

section
variable {s : State} (hc : s.cfg.ok = true) (hg : s.evtGate = false)
include hc hg

/-- START begins the frame (R142). -/
theorem run_rxStart (n : Nat) {ts : List Turn} (hb : s.rxBusy = false) (hq : s.rxq = [])
    (hs : s.sched = .rxArrive s.cfg.start :: .byteReceived :: ts) :
    core.run (n + 2) s = core.run n (inFrame s
      { freeFrom s.draws s.rxbuf.length.toNat s.rxbuf with xfer := .type } s.rxIdx (s.draws + 1) ts) :=
  run_receive n hc hg hq hs (rxStep_start (s := { s with rxq := [], sched := ts }) hb)

theorem run_rxType (n : Nat) (b : Byte) {buf : Packet} (hx : buf.xfer = .type) (i : Byte) (draws : Nat)
    (ts : List Turn) :
    core.run (n + 2) (inFrame s buf i draws (.rxArrive b :: .byteReceived :: ts)) =
      core.run n (inFrame s { buf with type := b, xfer := .length } i draws ts) :=
  run_receive n hc hg rfl rfl (rxStep_type b rfl hx)

theorem run_rxLength (n : Nat) (b : Byte) {buf : Packet} (hx : buf.xfer = .length) (i : Byte) (draws : Nat)
    (ts : List Turn) :
    core.run (n + 2) (inFrame s buf i draws (.rxArrive b :: .byteReceived :: ts)) =
      core.run n (inFrame s
        { freeFrom draws (clampLen s.cfg b).toNat buf with
          length := clampLen s.cfg b, xfer := if clampLen s.cfg b = 0 then .checksum else .data }
        0 (draws + 1) ts) :=
  run_receive n hc hg rfl rfl (rxStep_length b rfl hx)

theorem run_rxByte (n : Nat) (b : Byte) {buf : Packet} (hx : buf.xfer = .data) {i : Byte}
    (hi : i.toNat < buf.data.length) (draws : Nat) (ts : List Turn) :
    core.run (n + 2) (inFrame s buf i draws (.rxArrive b :: .byteReceived :: ts)) =
      core.run n (inFrame s
        { buf with data := buf.data.set i.toNat b, xfer := if i + 1 = buf.length then .checksum else .data }
        (i + 1) draws ts) :=
  run_receive n hc hg rfl rfl (rxStep_data b rfl hx hi)

theorem run_rxChecksum (b : Byte) {buf : Packet} (hx : buf.xfer = .checksum) (i : Byte) (draws : Nat)
    (ts : List Turn) :
    core.run 2 (inFrame s buf i draws (.rxArrive b :: .byteReceived :: ts)) =
      .next (rxChecksumStep b (inFrame s buf i draws ts)) :=
  run_receive 0 hc hg rfl rfl (rxStep_checksum b rfl hx)

/-- The data bytes from the counter on are stored one by one, and the counter ends at the length (R145). -/
theorem run_rxData (n : Nat) (x : Byte) (d : List Byte) {buf : Packet} (hx : buf.xfer = .data) {i : Byte}
    (hn : i.toNat + (d.length + 1) = buf.length.toNat) (hl : buf.length.toNat ≤ buf.data.length) (draws : Nat)
    (ts : List Turn) :
    ∃ e : List Byte, e.take buf.length.toNat = buf.data.take i.toNat ++ x :: d ∧
      core.run (n + 2 * (d.length + 1)) (inFrame s buf i draws (receiveTurns (x :: d) ++ ts)) =
        core.run n (inFrame s { buf with data := e, xfer := .checksum } buf.length draws ts) := by
  have hi : i.toNat < buf.data.length := by omega
  have next : (i + 1).toNat = i.toNat + 1 := counter_succ (l := buf.length) (by omega)
  induction d generalizing x buf i with
  | nil =>
    have last : i + 1 = buf.length := BitVec.eq_of_toNat_eq (next.trans hn)
    have stored := run_rxByte hc hg n x hx hi draws ts
    rw [if_pos last, last] at stored
    exact ⟨buf.data.set i.toNat x, by rw [← hn, List.length_nil, Nat.zero_add, take_set_succ hi], stored⟩
  | cons y d ih =>
    have more : i + 1 ≠ buf.length := fun h => by
      rw [h] at next
      simp only [List.length_cons] at hn
      omega
    have stored := run_rxByte hc hg (n + 2 * (d.length + 1)) x hx hi draws (receiveTurns (y :: d) ++ ts)
    rw [if_neg more] at stored
    have later : (i + 1).toNat + (d.length + 1) = buf.length.toNat := by
      rw [next, ← hn, List.length_cons]
      omega
    have hl' : buf.length.toNat ≤ (buf.data.set i.toNat x).length := by rwa [List.length_set]
    have hi' : (i + 1).toNat < (buf.data.set i.toNat x).length := by omega
    obtain ⟨e, he, hr⟩ := ih y (buf := { buf with data := buf.data.set i.toNat x, xfer := .data }) rfl later hl' hi'
      (counter_succ (l := buf.length) (by omega))
    refine ⟨e, ?_, stored.trans hr⟩
    rw [next, take_set_succ hi, List.append_assoc] at he
    exact he

/-- START, TYPE and LENGTH leave the packet's header, and data bytes that are still free (R142 to R144). -/
theorem run_rxHeader (n : Nat) (ty len : Byte) {ts : List Turn} (hb : s.rxBusy = false) (hq : s.rxq = [])
    (hs : s.sched = receiveTurns [s.cfg.start, ty, len] ++ ts) :
    ∃ e : List Byte, e.length = s.rxbuf.data.length ∧
      core.run (n + 6) s = core.run n (inFrame s
        ⟨ty, clampLen s.cfg len, e, s.rxbuf.checksum, if clampLen s.cfg len = 0 then .checksum else .data⟩
        0 (s.draws + 2) ts) := by
  have started := run_rxStart hc hg (n + 4) hb hq hs
  have typed := started.trans (run_rxType hc hg (n + 2) ty rfl ..)
  have sized := typed.trans (run_rxLength hc hg n len rfl ..)
  exact ⟨_, (freeFrom_data_length ..).trans (freeFrom_data_length ..), sized⟩

/-- The data bytes of the frame, if there are any. -/
theorem run_rxPayload (n : Nat) (d : List Byte) {buf : Packet}
    (hx : buf.xfer = if buf.length = 0 then .checksum else .data) (hn : d.length = buf.length.toNat)
    (hl : buf.length.toNat ≤ buf.data.length) (draws : Nat) (ts : List Turn) :
    ∃ e : List Byte, e.take buf.length.toNat = d ∧
      core.run (n + 2 * d.length) (inFrame s buf 0 draws (receiveTurns d ++ ts)) =
        core.run n (inFrame s { buf with data := e, xfer := .checksum } buf.length draws ts) := by
  cases d with
  | nil =>
    have hz : buf.length = 0 := BitVec.eq_of_toNat_eq hn.symm
    rw [if_pos hz] at hx
    have same : inFrame s { buf with data := buf.data, xfer := .checksum } buf.length draws ts = inFrame s buf 0 draws ts := by
      have filled : ({ buf with data := buf.data, xfer := .checksum } : Packet) = buf := by rw [← hx]
      rw [filled, hz]
    exact ⟨buf.data, by rw [hz]; rfl, by rw [same]; rfl⟩
  | cons x d =>
    have hz : buf.length ≠ 0 := fun h => by simp [h] at hn
    rw [if_neg hz] at hx
    have stored := run_rxData hc hg n x d hx (i := 0) (by simpa using hn) hl draws ts
    simpa using stored

end

theorem receiveTurns_append (l l' : List Byte) : receiveTurns (l ++ l') = receiveTurns l ++ receiveTurns l' :=
  List.flatMap_append

/-- The end of a frame: complete, with `rx_error` set on a mismatch alone, and nothing written outside the RX path. -/
theorem inFrame_checksum (s : State) (k : Byte) (buf : Packet) (i : Byte) (draws : Nat) (ts : List Turn) :
    let sum := cks buf.type buf.length (buf.data.take buf.length.toNat)
    rxChecksumStep k (inFrame s buf i draws ts) =
      { inFrame s { buf with checksum := k, xfer := .done } i draws ts with
        rxBusy := false, rxReady := true, rxError := decide (k ≠ sum),
        errKind := if k = sum then s.errKind else .checksumMismatch } := by
  intro sum
  by_cases h : k = sum
  · rw [rxChecksumStep_match (s := inFrame s buf i draws ts) h]
    simp [h, inFrame]
  · rw [rxChecksumStep_mismatch (s := inFrame s buf i draws ts) h]
    simp [h, inFrame]

/-- Settles O26: the bytes run through the receiver's states in order, and the CHECKSUM byte is compared with the checksum
of the bytes stored. -/
theorem receivedFrameIsStored : Obligations.ReceivedFrameIsStored := by
  intro s ty n k d ts hi hb hg hq hd hs
  have hc : s.cfg.ok = true := (Params.ok_iff _).2 hi.cfg_valid
  have len : clampLen s.cfg n = BitVec.ofNat 8 d.length := by rw [hd]; rfl
  have lenNat : (clampLen s.cfg n).toNat = d.length := (clampLen_toNat s.cfg n).trans hd.symm
  have turns : s.sched = receiveTurns [s.cfg.start, ty, n] ++ (receiveTurns d ++ (receiveTurns [k] ++ ts)) := by
    rw [hs, show s.cfg.start :: ty :: n :: (d ++ [k]) = [s.cfg.start, ty, n] ++ (d ++ [k]) from rfl]
    simp only [receiveTurns_append, List.append_assoc]
  obtain ⟨e, he, header⟩ := run_rxHeader hc hg (2 + 2 * d.length) ty n hb hq turns
  have room : d.length ≤ e.length := by
    rw [he, hi.rxdata_length, hd]
    exact Nat.min_le_right _ _
  obtain ⟨f, hf, payload⟩ := run_rxPayload hc hg 2 d
    (buf := ⟨ty, clampLen s.cfg n, e, s.rxbuf.checksum, if clampLen s.cfg n = 0 then .checksum else .data⟩) rfl
    lenNat.symm (lenNat.trans_le room) (s.draws + 2) (receiveTurns [k] ++ ts)
  have checked := (header.trans payload).trans (run_rxChecksum hc hg k rfl ..)
  rw [inFrame_checksum] at checked
  dsimp only at hf checked
  rw [hf, len] at checked
  rw [lenNat] at hf
  rw [show 2 + 2 * d.length + 6 = 2 * (d.length + 4) by omega] at checked
  exact ⟨_, checked, rfl, rfl, hf, rfl, rfl, rfl, rfl, rfl, decide_eq_true_iff, rfl,
    ⟨rfl, rfl, rfl, rfl, rfl, rfl, rfl⟩, ⟨rfl, rfl, rfl, rfl⟩, ⟨rfl, rfl, rfl, rfl, rfl, rfl, rfl, rfl⟩,
    ⟨rfl, rfl, rfl, rfl, rfl⟩, rfl, rfl⟩

end Sys2Proof.Machine
end

section
/-! SUPPORT. The proofs about a whole push: the bit stream (R213), the run of the sequencer (R222), and the waveform of the
gated interval (R223, R229). -/

namespace Sys2Proof.Machine

/-! ### The bit stream -/

@[simp] theorem pixelBits_length (p : Pixel) : (pixelBits p).length = 24 := by simp [pixelBits]

theorem bitStream_cons (p : Pixel) (ps : List Pixel) : bitStream (p :: ps) = pixelBits p ++ bitStream ps := rfl

theorem bitStream_length (ps : List Pixel) : (bitStream ps).length = 24 * ps.length := by
  induction ps with
  | nil => rfl
  | cons p ps ih =>
    rw [bitStream_cons, List.length_append, pixelBits_length, ih, List.length_cons]
    omega

theorem pixelBits_getElem? (p : Pixel) {k : Nat} (h : k < 24) : (pixelBits p)[k]? = some ((grb p).getLsbD (23 - k)) := by
  simp [pixelBits, h]

theorem bitStream_getElem? {ps : List Pixel} {k : Nat} (h : k < 24 * ps.length) :
    ∃ p, ps[k / 24]? = some p ∧ (bitStream ps)[k]? = some ((grb p).getLsbD (23 - k % 24)) := by
  induction ps generalizing k with
  | nil => simp at h
  | cons p ps ih =>
    by_cases hk : k < 24
    · refine ⟨p, by rw [Nat.div_eq_of_lt hk]; rfl, ?_⟩
      rw [bitStream_cons, List.getElem?_append_left (by simpa using hk), Nat.mod_eq_of_lt hk, pixelBits_getElem? p hk]
    · obtain ⟨j, rfl⟩ := Nat.exists_eq_add_of_le (Nat.le_of_not_lt hk)
      obtain ⟨q, hq, hb⟩ := ih (k := j) (by rw [List.length_cons] at h; omega)
      refine ⟨q, ?_, ?_⟩
      · rw [Nat.add_div_left j (by decide), List.getElem?_cons_succ, hq]
      · rw [bitStream_cons, List.getElem?_append_right (by simp), pixelBits_length, Nat.add_sub_cancel_left, hb,
          Nat.add_mod_left]

/-- Settles O44: each pixel gives 24 bits, so bit `k` is in pixel `k div 24` at place `k mod 24`. -/
theorem bitStreamIndexing : Obligations.BitStreamIndexing := fun ps => ⟨bitStream_length ps, fun _ => bitStream_getElem?⟩

/-! ### The waveform -/

/-- Settles O46: the shapes by definition, the order of the durations by R9, and a nominal time is within any
tolerance. -/
theorem nominalWaveforms : Obligations.NominalWaveforms := by
  refine fun c hc => ⟨rfl, rfl, hc.highs, hc.lows, fun y => ?_⟩
  have exact_within (t : Nat) : within c.tTol t t = true := by simp [within]
  match y with
  | .bit true | .bit false => simp [realises, nominal, exact_within]
  | .latch => simp [realises, nominal]

theorem within_le {tol nom real : Nat} (h : within tol nom real = true) : real ≤ nom + tol := by
  simp only [within, Bool.and_eq_true, decide_eq_true_eq] at h
  exact h.1

theorem duration_pair_le {tol h l t u : Nat} (hh : within tol h t = true) (hl : within tol l u = true) (a b : Level) :
    duration [(a, t), (b, u)] ≤ h + l + 2 * tol := by
  have := within_le hh
  have := within_le hl
  simp only [duration, List.map_cons, List.map_nil, List.sum_cons, List.sum_nil]
  omega

/-- A bit takes at most `T_BITMAX`: its high and its low are each at most a tolerance over (R229). -/
theorem duration_bit_le {c : Params} {b : Bool} {w : List (Level × Nat)} (h : realises c (.bit b) w = true) :
    duration w ≤ bitMax c := by
  unfold realises at h
  split at h
  · obtain ⟨hh, hl⟩ := Bool.and_eq_true_iff.1 h
    exact (duration_pair_le hh hl ..).trans (Nat.add_le_add_right (Nat.le_max_right _ _) _)
  · obtain ⟨hh, hl⟩ := Bool.and_eq_true_iff.1 h
    exact (duration_pair_le hh hl ..).trans (Nat.add_le_add_right (Nat.le_max_left _ _) _)
  · next hb => cases hb
  · cases h

theorem duration_latch_ge {c : Params} {w : List (Level × Nat)} (h : realises c .latch w = true) :
    c.tLatch ≤ duration w := by
  unfold realises at h
  split at h
  · next hb => cases hb
  · next hb => cases hb
  · simpa [duration] using h
  · cases h

theorem durations_le {c : Params} {bs : List Bool} {ws : List (List (Level × Nat))}
    (h : List.Forall₂ (fun b w => realises c (.bit b) w = true) bs ws) :
    (ws.map duration).sum ≤ bs.length * bitMax c := by
  induction h with
  | nil => exact Nat.zero_le _
  | cons hb _ ih =>
    rw [List.map_cons, List.sum_cons, List.length_cons, Nat.succ_mul, Nat.add_comm]
    exact Nat.add_le_add ih (duration_bit_le hb)

/-- Settles O47: every bit takes at most `T_BITMAX`, and there are `24 * N_LEDS` of them. -/
theorem gatedIntervalIsBounded : Obligations.GatedIntervalIsBounded := by
  intro s ws latch hp hbits hlatch
  have bits := durations_le hbits
  rw [bitStream_length, hp] at bits
  refine ⟨?_, duration_latch_ge hlatch⟩
  simpa using bits

/-! ### The render, bit by bit -/

/-- The render on `s` with `k` bits out: the position is bit `k`'s, and the bits are the stream's (R216). -/
def rendered (s : State) (k : Nat) (ts : List Turn) : State :=
  { s with
    serPix := k / 24, serBit := Fin.ofNat 24 k, ledLine := .low,
    ledOut := s.ledOut ++ ((bitStream s.pix).take k).map .bit, sched := ts }

/-- A turn of the sequencer. -/
theorem run_sequencer {s t : State} {ts : List Turn} (n : Nat) (hc : s.cfg.ok = true) (hs : s.sched = .sequencer :: ts)
    (h : pushStep { s with sched := ts } = .ok t) : core.run (n + 1) s = core.run n t :=
  run_turn n hc hs (finish_next.2 h)

theorem pushStep_rendered {s : State} (hp : s.pushState = .render) (ho : s.ledOpen = false)
    (hl : s.pix.length = s.cfg.nLeds) {k : Nat} (hk : k < 24 * s.cfg.nLeds) (ts : List Turn) :
    pushStep (rendered s k ts) = .ok (rendered s (k + 1) ts) := by
  obtain ⟨p, hx, hb⟩ := bitStream_getElem? (ps := s.pix) (k := k) (hl ▸ hk)
  have inPix : (rendered s k ts).serPix < s.cfg.nLeds := Nat.div_lt_of_lt_mul hk
  have bits : ((bitStream s.pix).take (k + 1)) = (bitStream s.pix).take k ++ [(grb p).getLsbD (23 - k % 24)] := by
    rw [List.take_add_one, hb]
    rfl
  have nextBit : Fin.ofNat 24 k + 1 = Fin.ofNat 24 (k + 1) := Fin.ext (by simp [Fin.val_add])
  have wraps : Fin.ofNat 24 (k + 1) = 0 ↔ 24 ∣ k + 1 := by
    rw [Nat.dvd_iff_mod_eq_zero, Fin.ext_iff]
    rfl
  have nextPix : (if 24 ∣ k + 1 then k / 24 + 1 else k / 24) = (k + 1) / 24 := by
    rw [Nat.succ_div]
    split <;> rfl
  rw [pushStep_render_bit (s := rendered s k ts) hp inPix hx, emitBit, emitSym_closed _ (s := rendered s k ts) ho]
  simp only [advance, rendered, nextBit, wraps, nextPix, bits, List.map_append, List.append_assoc]
  rfl

section
variable {s : State} (hc : s.cfg.ok = true) (hp : s.pushState = .render) (ho : s.ledOpen = false)
  (hl : s.pix.length = s.cfg.nLeds)
include hc hp ho hl

theorem run_rendered (n m : Nat) {k : Nat} (hk : k + m ≤ 24 * s.cfg.nLeds) (ts : List Turn) :
    core.run (n + m) (rendered s k (List.replicate m .sequencer ++ ts)) = core.run n (rendered s (k + m) ts) := by
  induction m generalizing k with
  | zero => rfl
  | succ m ih =>
    have bit := run_sequencer (n + m) (s := rendered s k (List.replicate (m + 1) .sequencer ++ ts)) hc rfl
      (pushStep_rendered hp ho hl (by omega) (List.replicate m .sequencer ++ ts))
    rw [show k + (m + 1) = k + 1 + m by omega] at hk ⊢
    exact bit.trans (ih hk)

end

/-! ### The stages of a push -/

theorem encodeFrame_status (c : Params) (ty : Byte) : encodeFrame c (statusMessage ty) = [c.start, ty, 0, ty] := by
  have noData : (statusMessage ty).payload c = [] :=
    List.eq_nil_of_length_eq_zero (by simp [statusMessage, Message.len])
  have length : clampLen c (statusMessage ty).length = 0 := clampLen_zero c
  rw [encodeFrame, noData, length]
  simp [statusMessage]

/-- A status frame goes out in four turns (R220). -/
theorem run_statusFrame (k : Nat) (ty : Byte) {s : State} {ts : List Turn} (hc : s.cfg.ok = true)
    (hg : s.evtGate = false) (hl : s.txbuf.data.length = s.cfg.maxData)
    (hs : s.sched = List.replicate 4 .byteSent ++ ts) :
    core.run (k + 4) (sendAccepted (statusMessage ty) s) =
      core.run k (afterFrame (sendAccepted (statusMessage ty) s) (s.wireTx ++ [s.cfg.start, ty, 0, ty]) ts) := by
  have len : (statusMessage ty).len s.cfg = 0 := by simp [statusMessage, Message.len]
  have sent := run_sentFrame k (statusMessage ty) hc hg hl (by rw [len]; exact hs)
  rwa [len, encodeFrame_status] at sent

/-- The push dispatched on `s`, with BUSY on the wire (R214). -/
def busyFrame (s : State) (q : List HostRequest) (ts : List Turn) : State :=
  afterFrame (sendAccepted (statusMessage s.cfg.typeBusy)
      { s with hostq := q, pushDone := false, pushState := .waitBusyDone, ledOpen := false })
    (s.wireTx ++ [s.cfg.start, s.cfg.typeBusy, 0, s.cfg.typeBusy]) ts

/-- Its render, before the first bit (R215). -/
def renderStart (s : State) (q : List HostRequest) : State :=
  { busyFrame s q [] with evtGate := true, pushState := .render }

/-- Its latch is on the line and the gate open again (R218). -/
def latched (s : State) (q : List HostRequest) (ts : List Turn) : State :=
  { rendered (renderStart s q) (24 * s.cfg.nLeds) ts with
    pushState := .waitTx2, evtGate := false, ledOut := s.ledOut ++ ((bitStream s.pix).map .bit ++ [.latch]) }

/-- It is complete, with READY on the wire (R219). -/
def readyFrame (s : State) (q : List HostRequest) (ts : List Turn) : State :=
  afterFrame (sendAccepted (statusMessage s.cfg.typeReady)
      { latched s q ts with pushState := .idle, pushDone := true })
    (s.wireTx ++ ([s.cfg.start, s.cfg.typeBusy, 0, s.cfg.typeBusy] ++ [s.cfg.start, s.cfg.typeReady, 0, s.cfg.typeReady]))
    ts

section
variable {s : State} (hi : Inv s)
include hi

/-- The host dispatches the Push, and the sequencer sends BUSY (R178, R214). -/
theorem run_busyFrame (k : Nat) {m : Message} {e : List Byte} {q : List HostRequest} {ts : List Turn}
    (hp : s.pushState = .idle) (hr : s.txReady = true) (hf : s.cmdFault = false) (ht : s.tuned = true)
    (hd : decodePacket s.cfg m = .push e) (hq : s.hostq = .dispatch m :: q)
    (hs : s.sched = .host :: .sequencer :: (List.replicate 4 .byteSent ++ ts)) :
    core.run (k + 6) s = core.run k (busyFrame s q ts) := by
  have hc : s.cfg.ok = true := (Params.ok_iff _).2 hi.cfg_valid
  have hg : s.evtGate = false := by rw [hi.gate_iff, hp]; rfl
  have held : hostHeld s = false := by simp [hostHeld, hp]
  have push := execPush_ok e (s := { s with sched := .sequencer :: (List.replicate 4 .byteSent ++ ts), hostq := q }) hf
  rw [show (!s.tuned) = false by rw [ht]; rfl] at push
  have dispatched := run_host (i := .dispatch m) (k + 5) hc hs held hq rfl
    ((execDispatch_eq m _).trans ((congrArg (execCommand · _) hd).trans push))
  have sends := run_sequencer (k + 4)
    (s := { s with
      sched := .sequencer :: (List.replicate 4 .byteSent ++ ts), hostq := q, pushDone := false, pushState := .waitTx1,
      ledOpen := false })
    hc rfl (pushStep_waitTx1 rfl hr)
  have sent := run_statusFrame k s.cfg.typeBusy
    (s := { s with
      sched := List.replicate 4 .byteSent ++ ts, hostq := q, pushDone := false, pushState := .waitBusyDone,
      ledOpen := false })
    hc hg hi.txdata_length rfl
  exact dispatched.trans (sends.trans sent)

/-- The gate closes, and no bit is out yet (R215). -/
theorem run_renderStart (k : Nat) (q : List HostRequest) (ts : List Turn) :
    core.run (k + 1) (busyFrame s q (.sequencer :: ts)) = core.run k (rendered (renderStart s q) 0 ts) := by
  have hc : s.cfg.ok = true := (Params.ok_iff _).2 hi.cfg_valid
  have started : rendered (renderStart s q) 0 ts =
      { busyFrame s q ts with evtGate := true, serPix := 0, serBit := 0, pushState := .render } := by
    simp only [rendered, List.take_zero, List.map_nil, List.append_nil]
    rw [← show (renderStart s q).ledLine = .low from hi.line_low]
    rfl
  rw [started]
  exact run_sequencer k (s := busyFrame s q (.sequencer :: ts)) hc rfl (pushStep_waitBusyDone rfl rfl)

/-- Past the last position all of the stream is out. -/
theorem rendered_ledOut (q : List HostRequest) (ts : List Turn) :
    (rendered (renderStart s q) (24 * s.cfg.nLeds) ts).ledOut = s.ledOut ++ (bitStream s.pix).map .bit := by
  have allBits : (bitStream s.pix).take (24 * s.cfg.nLeds) = bitStream s.pix := by
    rw [← hi.pix_length, ← bitStream_length, List.take_length]
  exact congrArg (s.ledOut ++ List.map LedSym.bit ·) allBits

/-- After the last bit the latch, and the gate opens (R217, R218). -/
theorem run_latched (k : Nat) (q : List HostRequest) (ts : List Turn) :
    core.run (k + 2) (rendered (renderStart s q) (24 * s.cfg.nLeds) (.sequencer :: .sequencer :: ts)) =
      core.run k (latched s q ts) := by
  have hc : s.cfg.ok = true := (Params.ok_iff _).2 hi.cfg_valid
  have ends := run_sequencer (k + 1)
    (s := rendered (renderStart s q) (24 * s.cfg.nLeds) (.sequencer :: .sequencer :: ts)) hc rfl
    (pushStep_render_done rfl (Nat.mul_div_cancel_left s.cfg.nLeds (by decide)))
  have latches := run_sequencer k
    (s := { rendered (renderStart s q) (24 * s.cfg.nLeds) (.sequencer :: ts) with pushState := .latch }) hc rfl
    (pushStep_latch rfl)
  have out : (rendered (renderStart s q) (24 * s.cfg.nLeds) ts).ledOut ++ [.latch] =
      s.ledOut ++ ((bitStream s.pix).map .bit ++ [.latch]) := by
    rw [rendered_ledOut hi, List.append_assoc]
  rw [pushLatch, emitLatch, emitSym_closed .latch rfl] at latches
  rw [latched, ← out]
  exact ends.trans latches

/-- The sequencer sends READY and releases the host (R219). -/
theorem run_readyFrame (k : Nat) (q : List HostRequest) (ts : List Turn) :
    core.run (k + 5) (latched s q (.sequencer :: (List.replicate 4 .byteSent ++ ts))) =
      core.run k (readyFrame s q ts) := by
  have hc : s.cfg.ok = true := (Params.ok_iff _).2 hi.cfg_valid
  have size : (busyFrame s q ts).txbuf.data.length = s.cfg.maxData :=
    (sendBuffer_data_length _ _ (hi.txdata_length ▸ Message.len_le ..)).trans hi.txdata_length
  have sends := run_sequencer (k + 4) (s := latched s q (.sequencer :: (List.replicate 4 .byteSent ++ ts))) hc rfl
    (pushStep_waitTx2 rfl rfl)
  have sent := run_statusFrame k s.cfg.typeReady
    (s := { latched s q (List.replicate 4 .byteSent ++ ts) with pushState := .idle, pushDone := true }) hc rfl size rfl
  rw [readyFrame, ← List.append_assoc]
  exact sends.trans sent

end

/-- The turns of a push after its latch. -/
def readyTurns (ts : List Turn) : List Turn := .sequencer :: (List.replicate 4 .byteSent ++ ts)

/-- The turns of a push from its first bit on. -/
def renderTurns (nLeds : Nat) (ts : List Turn) : List Turn :=
  List.replicate (24 * nLeds) .sequencer ++ .sequencer :: .sequencer :: readyTurns ts

theorem pushTurns_append (nLeds : Nat) (ts : List Turn) :
    pushTurns nLeds ++ ts = .sequencer :: (List.replicate 4 .byteSent ++ .sequencer :: renderTurns nLeds ts) := by
  simp [pushTurns, renderTurns, readyTurns]

/-- Settles O45: the stages of the push in order, each from where the one before it ends, with `24 * N_LEDS` bits between
the start of the render and the latch. -/
theorem pushRunsToCompletion : Obligations.PushRunsToCompletion := by
  intro s m e q ts hi hp hr hf ht hd hq hs busy ready bits
  have hc : s.cfg.ok = true := (Params.ok_iff _).2 hi.cfg_valid
  rw [pushTurns_append] at hs
  have toStart (k : Nat) : core.run (k + 7) s = core.run k (rendered (renderStart s q) 0 (renderTurns s.cfg.nLeds ts)) :=
    (run_busyFrame hi (k + 1) hp hr hf ht hd hq hs).trans (run_renderStart hi k q _)
  have toBits (k : Nat) : core.run (k + 24 * s.cfg.nLeds + 7) s =
      core.run k (rendered (renderStart s q) (24 * s.cfg.nLeds) (.sequencer :: .sequencer :: readyTurns ts)) := by
    have render := run_rendered (s := renderStart s q) hc rfl rfl hi.pix_length k (24 * s.cfg.nLeds) (k := 0)
      (Nat.zero_add _).le (.sequencer :: .sequencer :: readyTurns ts)
    rw [Nat.zero_add] at render
    exact (toStart _).trans render
  have toLatch (k : Nat) : core.run (k + 2 + 24 * s.cfg.nLeds + 7) s = core.run k (latched s q (readyTurns ts)) :=
    (toBits (k + 2)).trans (run_latched hi k q (readyTurns ts))
  have atBits : core.run (24 * s.cfg.nLeds + 7) s =
      .next (rendered (renderStart s q) (24 * s.cfg.nLeds) (.sequencer :: .sequencer :: readyTurns ts)) := by
    rw [show 24 * s.cfg.nLeds + 7 = 0 + 24 * s.cfg.nLeds + 7 by omega]
    exact toBits 0
  have atLatch : core.run (24 * s.cfg.nLeds + 9) s = .next (latched s q (readyTurns ts)) := by
    rw [show 24 * s.cfg.nLeds + 9 = 0 + 2 + 24 * s.cfg.nLeds + 7 by omega]
    exact toLatch 0
  have atEnd : core.run (24 * s.cfg.nLeds + 14) s = .next (readyFrame s q ts) := by
    rw [show 24 * s.cfg.nLeds + 14 = 0 + 5 + 2 + 24 * s.cfg.nLeds + 7 by omega]
    exact (toLatch (0 + 5)).trans (run_readyFrame hi 0 q ts)
  exact ⟨_, _, _, _, toStart 0, rfl, List.append_nil _, rfl, rfl, atBits, rfl, rendered_ledOut hi q _, rfl,
    atLatch, rfl, rfl, rfl, rfl, atEnd, rfl, rfl, rfl, rfl, rfl, rfl, rfl, rfl, rfl, rfl, rfl,
    ⟨rfl, rfl, rfl, rfl, rfl, rfl⟩, ⟨rfl, rfl, rfl, rfl⟩, ⟨rfl, rfl, rfl, rfl, rfl⟩, rfl, rfl⟩

end Sys2Proof.Machine
end
